-- ==== Sys2Proof/Word.lean ====
section
/-! DEFINITION. The byte, and the byte images the CDP's ports carry (20_memory.md R50). -/

namespace Sys2Proof

/-- One byte. -/
abbrev Byte := BitVec 8

/-- A byte array of `n` bytes, indexed from 0 (R11, R50). -/
abbrev Image (n : Nat) := Vector Byte n

end Sys2Proof
end

