-- ==== Sys2Proof/Syntax.lean ====
section
/-! DEFINITION. The commands of the CDP (30_encoding.md R70 to R72), one constructor for each mnemonic of the
opcode table; the table's 252 RESERVED rows are the codes of one constructor. -/

namespace Sys2Proof

/-- A command. It has no operand fields (R70); `reserved` keeps the code it was read from. -/
inductive Instr where
  /-- `NOP`, code 0x00 (R120). -/
  | nop
  /-- `CALLOAD`, code 0x01 (R100). -/
  | calload
  /-- `MEASURE`, code 0x02 (R121). -/
  | measure
  /-- `INVAL`, code 0x03 (R104). -/
  | inval
  /-- A reserved code, 0x04 … 0xFF (R72, R128). -/
  | reserved (op : Byte)
  deriving DecidableEq, Repr

end Sys2Proof
end

