-- ==== Sys2Proof/WellFormed.lean ====
section
/-! DEFINITION. Which commands the encoding can express (30_encoding.md R71, R72). -/

namespace Sys2Proof

/-- A `reserved` command's code is one of the reserved codes 0x04 … 0xFF (R72). -/
def Instr.wf : Instr → Bool
  | .nop => true
  | .calload => true
  | .measure => true
  | .inval => true
  | .reserved op => decide (4 ≤ op.toNat)

end Sys2Proof
end

