-- ==== Sys2Proof/Decode.lean ====
section
/-! DEFINITION. The command map (30_encoding.md R70 to R72): the decoder, total on any bytes, and the encoder. -/

namespace Sys2Proof

/-- Why a byte sequence holds no command. -/
inductive DecodeError where
  /-- There is no byte to read. Every byte is a command (R72), so this is the only refusal. -/
  | noByte
  deriving DecidableEq, Repr

/-- The command a `CMD` byte stands for (R71, R72). -/
def decodeByte (op : Byte) : Instr :=
  if op = 0x00 then .nop
  else if op = 0x01 then .calload
  else if op = 0x02 then .measure
  else if op = 0x03 then .inval
  else .reserved op

/-- "A decoder reads exactly one byte per command" (R70): the command and the bytes after it. -/
def decode : List Byte → Except DecodeError (Instr × List Byte)
  | [] => .error .noByte
  | op :: rest => .ok (decodeByte op, rest)

/-- The code of a command (R71, R72). -/
def Instr.opcode : Instr → Byte
  | .nop => 0x00
  | .calload => 0x01
  | .measure => 0x02
  | .inval => 0x03
  | .reserved op => op

/-- The bytes of a command (R70). -/
def encode (i : Instr) : List Byte := [i.opcode]

/-- The low `n` bytes of `w`, least significant first. -/
def bytesOf : Nat → Nat → List Byte
  | 0, _ => []
  | n + 1, w => BitVec.ofNat 8 w :: bytesOf n (w / 256)

/-- The bytes of an opcode-table word of `nbits` bits, filled up with zeros to one command. -/
def tableBytes (nbits w : Nat) : List Byte := bytesOf (max 1 (nbits / 8)) (w % 2 ^ nbits)

/-- The command the decoder reads from an opcode-table word. -/
def decodeTableWord (nbits w : Nat) : Option Instr :=
  match decode (tableBytes nbits w) with
  | .ok (i, _) => some i
  | .error _ => none

end Sys2Proof
end

