-- ==== Sys2Proof/Machine/Environment.lean ====
section
/-! DEFINITION. What passes between the CDP, its host driver and the outside world: the names of the readable
registers, what a caller may ask of the driver, the primitive calls the driver makes (00_scope.md R17) and the turns
of the outside world (46_host_protocol.md R248). -/

namespace Sys2Proof.Machine

/-- The registers a host may read between two commands (10_state.md R20, R30). -/
inductive Reg where
  | t1 | t2 | t3
  | p1 | p2 | p3 | p4 | p5 | p6 | p7 | p8 | p9
  | h1 | h2 | h3 | h4 | h5 | h6
  | adcP | adcT | adcH
  | tFine | tOut | pOut | hOut
  | tempC | tempF | pressHpa | humPct
  | status
  deriving DecidableEq, Repr

/-- A bus-device handle: a token that `Attach` returns (R17, R230). -/
abbrev Handle := Nat

/-- What the caller may ask of the driver: the entry points of 46_host_protocol.md, the lines of a CDP program
(30_encoding.md R73), and the read of a register (R30). -/
inductive Call where
  /-- `initialize(bus)` (R231); `bus` says whether the bus handle is not null. -/
  | init (bus : Bool)
  /-- `read()` (R240 to R242); `out` says whether the output pointer is not null (R247). -/
  | read (out : Bool)
  /-- `is_available()` (R230). -/
  | isAvailable
  /-- Release the session (40_calibration.md R105, its second case). -/
  | release
  /-- `BusRead(reg, n)` (R236). -/
  | busRead (reg : Byte) (n : Nat)
  /-- `BusWrite(reg, v)` (R237). -/
  | busWrite (reg v : Byte)
  /-- Read one register between two commands (R30). -/
  | readReg (r : Reg)
  /-- Issue the command byte `op` (R58); `.word` and the mnemonics of R73. -/
  | cmd (op : Byte)
  /-- The directive `.cal_a` (R73). -/
  | driveCalA (im : Image 26)
  /-- The directive `.cal_b` (R73). -/
  | driveCalB (im : Image 7)
  /-- The directive `.raw` (R73). -/
  | driveRaw (im : Image 8)
  deriving DecidableEq, Repr

/-- One turn of the outside world (R248): the platform resets the CDP, or the driver acts and this is what it meets. -/
inductive Turn where
  /-- The platform resets the CDP (70_reset_and_hazards.md R290). -/
  | reset
  /-- The driver makes its next step. `call` is what the caller asks if the driver is idle. The rest is the draw of
  the primitive that this step calls, if it calls one: `ok` the boolean of `Probe`, `Write` or `TryAcquire`, or
  whether `WriteRead` succeeds; `handle` what `Attach` returns; `bytes` what `WriteRead` returns. -/
  | act (call : Option Call) (ok : Bool) (handle : Handle) (bytes : List Byte)
  deriving DecidableEq, Repr, Inhabited

/-- A primitive call of the driver with its arguments (R17). A handle argument is the driver's handle variable as it
stands. -/
inductive PrimCall where
  | probe (addr : BitVec 7) (timeoutMs : Nat)
  | attach (addr : BitVec 7) (speed params : Nat)
  | writeRead (handle : Option Handle) (reg : Byte) (n : Nat) (timeoutMs : Nat)
  | write (handle : Option Handle) (bytes : List Byte) (timeoutMs : Nat)
  | detach (handle : Option Handle)
  /-- `TryAcquire`, and whether it got the lock. -/
  | tryAcquire (timeoutMs : Nat) (got : Bool)
  | release
  | sleep (ms : Nat)
  /-- `Cmd(c)`: issue command `c` to the CDP. -/
  | cmd (op : Byte)
  deriving DecidableEq, Repr

end Sys2Proof.Machine
end

