-- ==== Sys2Proof/Config.lean ====
section
/-! DEFINITION. What an implementation fixes: the model parameters (00_scope.md R8), the host-protocol parameters (R9),
the OPEN sensor constants (R10), and the free values, which are constants without a body. -/

namespace Sys2Proof

/-- `OVF_MODE` (R8): what a signed overflow in an evaluator does. -/
inductive OvfMode where
  /-- Two's-complement wrap: the CDP itself. -/
  | wrap
  /-- The model fault `Overflow` (60_exceptions.md R266). -/
  | fault
  deriving DecidableEq, Repr

/-- `RESULT_FMT` (R8): the format of the four floating-point result registers. -/
inductive ResultFmt where
  | binary64
  | binary32
  deriving DecidableEq, Repr

/-- The model parameters with their defaults (R8). -/
structure Params where
  resultFmt : ResultFmt := .binary64
  ovfMode : OvfMode := .wrap
  /-- Whether raw humidity 0x8000 is also treated as "no data" (41_measure.md R125). -/
  checkHSentinel : Bool := false
  deriving DecidableEq, Repr

/-- The host-protocol parameters with their defaults, times in milliseconds (R9). -/
structure HostParams where
  lockTimeoutMs : Nat := 100
  xferTimeoutMs : Nat := 60
  probeTimeoutMs : Nat := 60
  probeAttempts : Nat := 3
  probeRetryDelayMs : Nat := 10
  chipIdAttempts : Nat := 3
  chipIdRetryDelayMs : Nat := 10
  resetSettleMs : Nat := 5
  statusWaitMs : Nat := 2
  deriving DecidableEq, Repr

/-- `PROBE_TIMEOUT_MS` has the allowed range 60 to 100 (R9). -/
def HostParams.wf (p : HostParams) : Bool := decide (60 ≤ p.probeTimeoutMs ∧ p.probeTimeoutMs ≤ 100)

namespace Config

/-! The OPEN sensor constants (R10, D23): the model holds for every value of them. -/

opaque addrPrimary : BitVec 7
opaque addrSecondary : BitVec 7
opaque chipIdReg : Byte
opaque chipIdValue : Byte
opaque calibAReg : Byte
opaque calibBReg : Byte
opaque statusReg : Byte
opaque statusBusyMask : Byte
opaque dataReg : Byte
opaque resetReg : Byte
opaque resetCmd : Byte
opaque ctrlHumReg : Byte
opaque ctrlHumVal : Byte
opaque ctrlMeasReg : Byte
opaque ctrlMeasVal : Byte
opaque configReg : Byte
opaque configVal : Byte
opaque busSpeed : Nat
/-- The other "protocol parameters" that `Attach` takes (R17, R232, N20). -/
opaque attachParams : Nat

/-- FREE VALUE (U11): byte `i` of a port that the host has never driven, in the sample numbered `n`. -/
opaque portByte (n i : Nat) : Byte

/-- FREE VALUE (R248, D29): the `n`-th turn of the outside world that State does not list. -/
opaque turn (n : Nat) : Machine.Turn

end Config

end Sys2Proof
end

