-- ==== Sys2Proof/Machine/State.lean ====
section
/-! DEFINITION. The state of the machine: the CDP's registers (10_state.md R20), its input ports (R28), the parameters
(00_scope.md R8, R9), the host driver (46_host_protocol.md R230), and the model's own bookkeeping; the reasons a step
can stop; the state after reset (70_reset_and_hazards.md R290). A register that the spec says holds no value (⊥, R14)
holds `none`. -/

namespace Sys2Proof.Machine

/-- The calibration register file `CAL` (R21). An unsigned field is read by `toNat`, a signed one by `toInt`. -/
structure Calib where
  t1 : BitVec 16
  t2 : BitVec 16
  t3 : BitVec 16
  p1 : BitVec 16
  p2 : BitVec 16
  p3 : BitVec 16
  p4 : BitVec 16
  p5 : BitVec 16
  p6 : BitVec 16
  p7 : BitVec 16
  p8 : BitVec 16
  p9 : BitVec 16
  h1 : BitVec 8
  h2 : BitVec 16
  h3 : BitVec 8
  h4 : BitVec 12
  h5 : BitVec 12
  h6 : BitVec 8
  deriving DecidableEq, Repr

/-- The content of a floating-point result register: an IEEE 754 bit pattern of the format `RESULT_FMT` (R26, R80). -/
inductive FloatVal where
  | binary64 (bits : BitVec 64)
  | binary32 (bits : BitVec 32)
  deriving DecidableEq, Repr

/-- The fields of `STATUS` (R27, R77). The reserved bits 7:6 have no storage: they always read 0. -/
structure Status where
  avail : Bool
  resValid : Bool
  pZero : Bool
  err : BitVec 3
  deriving DecidableEq, Repr

/-- The CDP's registers, "exactly the following" (R20). -/
structure Cdp where
  /-- `CAL`: all 18 fields hold a value, or all are ⊥ (R22, R100, R104). -/
  cal : Option Calib
  /-- `ADC_P`, u20 (R23). -/
  adcP : Option (BitVec 20)
  /-- `ADC_T`, u20 (R23). -/
  adcT : Option (BitVec 20)
  /-- `ADC_H`, u16 (R23). -/
  adcH : Option (BitVec 16)
  /-- `T_FINE`, s32 (R24). -/
  tFine : Option (BitVec 32)
  /-- `T_OUT`, s32, 0.01 °C (R25). -/
  tOut : Option (BitVec 32)
  /-- `P_OUT`, s64, 1/256 Pa (R25). -/
  pOut : Option (BitVec 64)
  /-- `H_OUT`, u32, 1/1024 %RH (R25). -/
  hOut : Option (BitVec 32)
  /-- `TEMP_C` (R26). -/
  tempC : Option FloatVal
  /-- `TEMP_F` (R26). -/
  tempF : Option FloatVal
  /-- `PRESS_HPA` (R26). -/
  pressHpa : Option FloatVal
  /-- `HUM_PCT` (R26). -/
  humPct : Option FloatVal
  /-- `STATUS` (R27). -/
  status : Status
  deriving DecidableEq, Repr

/-- The registers right after the CDP's reset (R290). -/
def Cdp.reset : Cdp :=
  { cal := none, adcP := none, adcT := none, adcH := none
    tFine := none, tOut := none, pOut := none, hOut := none
    tempC := none, tempF := none, pressHpa := none, humPct := none
    status := { avail := false, resValid := false, pZero := false, err := 0 } }

/-- The two addresses `initialize` tries, in this order (R231). -/
inductive Candidate where
  | primary
  | secondary
  deriving DecidableEq, Repr

/-- The error kinds a host operation returns (R247). -/
inductive HostErr where
  | invalidArgument
  | timeout
  | notFound
  | invalidState
  | invalidResponse
  deriving DecidableEq, Repr

/-- What a bus transaction returns (R236, R237): the bytes it read, or an error. -/
inductive TxnResult where
  | ok (bytes : List Byte)
  | err (e : HostErr)
  deriving DecidableEq, Repr

/-- Which bus transaction the driver is making, and so where it goes on afterwards. `left` counts the attempts that
remain after this one; `a` and `b` are the calibration images the host holds until CALLOAD (R233). -/
inductive Site where
  /-- The probe of a candidate address (R232). -/
  | probe (c : Candidate) (left : Nat)
  /-- A read of the chip-identification register (R232). -/
  | chipId (c : Candidate) (left : Nat)
  /-- The read of the 26-byte calibration block (R233). -/
  | calA (c : Candidate)
  /-- The read of the 7-byte calibration block (R233). -/
  | calB (c : Candidate) (a : Image 26)
  /-- The soft-reset write (R234). -/
  | softReset (c : Candidate) (a : Image 26) (b : Image 7)
  /-- The humidity-oversampling write (R234). -/
  | ctrlHum (c : Candidate) (a : Image 26) (b : Image 7)
  /-- The temperature/pressure-oversampling and mode write (R234). -/
  | ctrlMeas (c : Candidate) (a : Image 26) (b : Image 7)
  /-- The standby-time/filter write (R234). -/
  | config (c : Candidate) (a : Image 26) (b : Image 7)
  /-- The status read of `read()` (R240). -/
  | status
  /-- The data read of `read()` (R241). -/
  | data
  /-- A `BusRead` that the caller asked for (R236). -/
  | userRead (reg : Byte) (n : Nat)
  /-- A `BusWrite` that the caller asked for (R237). -/
  | userWrite (reg v : Byte)
  deriving DecidableEq, Repr

/-- How far a transaction is: inside one hold of the bus lock (R235). -/
inductive TxnStage where
  | acquire
  | transfer
  | release (r : TxnResult)
  deriving DecidableEq, Repr

/-- The value of a register as a host reads it: a mathematical integer in its range (R12), or a float. -/
inductive RegVal where
  | int (v : Int)
  | float (f : FloatVal)
  deriving DecidableEq, Repr

/-- What a host operation returned. -/
inductive HostResult where
  /-- OK (R231, R237), and the end of a release (40_calibration.md R105). -/
  | ok
  | err (e : HostErr)
  /-- The Measurement Result, copied out (R242). -/
  | measurement (tempC tempF humPct pressHpa : FloatVal)
  /-- The bytes of a `BusRead` (R236). -/
  | bytes (bs : List Byte)
  /-- `is_available()` (R230). -/
  | available (b : Bool)
  /-- A register read between two commands (R30). -/
  | regVal (v : RegVal)
  /-- A read that found ⊥ in the register `r` (R14): no value, never zero; the fault `UnsetRead` is recorded (R267). -/
  | unset (r : Reg)
  /-- An error code after MEASURE that R242 does not list; MEASURE never leaves one. -/
  | code (err : BitVec 3)
  deriving DecidableEq, Repr

/-- The point the driver has reached. -/
inductive Task where
  | idle
  | txn (site : Site) (stage : TxnStage)
  /-- `Sleep(PROBE_RETRY_DELAY_MS)` before the next probe (R232). -/
  | probeDelay (c : Candidate) (left : Nat)
  /-- `Attach` (R232). -/
  | attach (c : Candidate)
  /-- `Sleep(CHIPID_RETRY_DELAY_MS)` before the next identity read (R232). -/
  | chipIdDelay (c : Candidate) (left : Nat)
  /-- `Detach(handle); handle <- none; return FAIL` (R232 to R234). -/
  | abandon (c : Candidate)
  /-- `Sleep(RESET_SETTLE_MS)` (R234). -/
  | settle (c : Candidate) (a : Image 26) (b : Image 7)
  /-- `CAL_A <- A ; CAL_B <- B ; Cmd(CALLOAD)` (R233). -/
  | load (c : Candidate) (a : Image 26) (b : Image 7)
  /-- `addr <- a ; return OK` (R231). -/
  | loaded (c : Candidate)
  /-- `Sleep(STATUS_WAIT_MS)` (R240). -/
  | statusWait
  /-- `Detach(handle); handle <- none`, the first half of a release (40_calibration.md R105): after a failed read (R240,
  R241), or because the caller ends the session. `r` is what the operation returns in the end. -/
  | drop (r : HostResult)
  /-- `Cmd(INVAL)`, the second half of a release (40_calibration.md R105, R240, R241). -/
  | inval (r : HostResult)
  /-- The return after the INVAL (R240, R241). -/
  | released (r : HostResult)
  /-- `RAW_IN <- r ; Cmd(MEASURE)` (R242). -/
  | measure (r : Image 8)
  /-- `case STATUS.ERR` (R242). -/
  | collect
  deriving DecidableEq, Repr

/-- The host driver (R230). -/
structure Driver where
  handle : Option Handle
  addr : Option (BitVec 7)
  task : Task
  /-- What the last host operation returned. -/
  result : Option HostResult
  deriving DecidableEq, Repr

structure State where
  /-- The CDP's registers (R20). -/
  cdp : Cdp
  /-- `CMD`: the command the host has issued and the CDP has not executed yet (R28, R58). -/
  cmd : Option Byte
  /-- `CAL_A` as the host last drove it, or never driven (R28, R294). -/
  calA : Option (Image 26)
  /-- `CAL_B` as the host last drove it, or never driven (R28, R294). -/
  calB : Option (Image 7)
  /-- `RAW_IN` as the host last drove it, or never driven (R28, R294). -/
  rawIn : Option (Image 8)
  /-- The model parameters (R8). No step writes them. -/
  par : Params
  /-- The host-protocol parameters (R9). No step writes them. -/
  hostPar : HostParams
  /-- The host driver (R230). -/
  driver : Driver
  /-- The record of the model fault `UnsetRead` (R267): the first register that a host read found to hold ⊥. Such a fault "is
  recorded and never cleared" (93_implementation_defined.md, U10): no step takes the record away, and the machine goes on. -/
  unsetRead : Option Reg
  /-- The model's own: the turns of the outside world still to come, oldest first (R248). -/
  env : List Turn
  /-- The model's own: how many free values have been taken. -/
  draws : Nat
  /-- The model's own: the primitive calls the driver has made, newest first. -/
  trace : List PrimCall
  deriving DecidableEq, Repr

/-- The machine right after reset: the CDP's registers as R290 says, the parameters at their defaults (R8, R9), no port
driven, no command issued, the driver idle, and no model fault recorded (DESIGN CHOICE, log 2, 3, 7, 8, 18, 30). -/
def State.reset : State :=
  { cdp := Cdp.reset
    cmd := none, calA := none, calB := none, rawIn := none
    par := {}, hostPar := {}
    driver := { handle := none, addr := none, task := .idle, result := none }
    unsetRead := none
    env := [], draws := 0, trace := [] }

/-- Why the machine stops. The other model fault of 60_exceptions.md section 3, `UnsetRead`, is recorded in the state
(`State.unsetRead`) and stops nothing. -/
inductive Fault where
  /-- `Overflow` (R266): MEASURE raises it under `OVF_MODE = fault` when an evaluator operation's exact result leaves
  its width. Safe: the hardware goes on with the wrapped value. -/
  | overflow
  deriving DecidableEq, Repr

/-- Why an instruction has no meaning in the model. -/
inductive Refusal where
  /-- `exec` raises it for an instruction not modelled yet; no arm does. Safe: the model stops. -/
  | notModelled (mnemonic : String)
  deriving DecidableEq, Repr

end Sys2Proof.Machine
end

