-- ==== Sys2Proof/Machine/Flags.lean ====
section
/-! DEFINITION. The status register: its 8-bit encoding (30_encoding.md R77), its error codes (R78) and the writes of its
fields (10_state.md R27). -/

namespace Sys2Proof.Machine

/-- `NONE` (R78). -/
def errNone : BitVec 3 := 0

/-- `INVALID_STATE` (R78). -/
def errInvalidState : BitVec 3 := 1

/-- `INVALID_RESPONSE` (R78). -/
def errInvalidResponse : BitVec 3 := 2

/-- `ILLEGAL_COMMAND` (R78). -/
def errIllegalCommand : BitVec 3 := 3

/-- `STATUS` as the host reads it (R77): bits 7:6 are 0. -/
def Status.word (s : Status) : BitVec 8 :=
  (0 : BitVec 2) ++ s.err ++ BitVec.ofBool s.pZero ++ BitVec.ofBool s.resValid ++ BitVec.ofBool s.avail

/-- `STATUS.ERR <- code`. -/
def Status.setErr (s : Status) (code : BitVec 3) : Status := { s with err := code }

/-- `STATUS.AVAIL <- 1`. -/
def Status.setAvail (s : Status) : Status := { s with avail := true }

/-- `STATUS.RES_VALID <- 0`. -/
def Status.clearResValid (s : Status) : Status := { s with resValid := false }

/-- The status writes of INVAL: `AVAIL <- 0`, `RES_VALID <- 0`, `ERR <- NONE` (R104). -/
def Status.invalidate (s : Status) : Status := { s with avail := false, resValid := false, err := errNone }

/-- The status writes of a successful MEASURE: `P_ZERO <- z`, `RES_VALID <- 1`, `ERR <- NONE` (R121). -/
def Status.publish (s : Status) (z : Bool) : Status := { s with pZero := z, resValid := true, err := errNone }

end Sys2Proof.Machine
end

