-- ==== Sys2Proof/Machine/Operands.lean ====
section
/-! DEFINITION. The operand forms: the fields of the calibration images (30_encoding.md R74, R75) and of the raw data
image (R76), and the images that hold given values (R73). -/

namespace Sys2Proof.Machine

/-- `lo | (hi << 8)`: a little-endian 16-bit field (R52, R74). -/
def le16 (lo hi : Byte) : BitVec 16 := hi ++ lo

/-- Bits 3:0 of a byte. -/
def lowNibble (b : Byte) : BitVec 4 := b.extractLsb' 0 4

/-- Bits 7:4 of a byte. -/
def highNibble (b : Byte) : BitVec 4 := b.extractLsb' 4 4

/-- `(b << 4) | n`: a nibble-packed 12-bit field (R75). -/
def packed12 (b : Byte) (n : BitVec 4) : BitVec 12 := b ++ n

/-- The calibration that the images `CAL_A` and `CAL_B` hold (R74, R75, R100). `CAL_A[24]` is read by no field. -/
def decodeCal (a : Image 26) (b : Image 7) : Calib :=
  { t1 := le16 a[0] a[1], t2 := le16 a[2] a[3], t3 := le16 a[4] a[5]
    p1 := le16 a[6] a[7], p2 := le16 a[8] a[9], p3 := le16 a[10] a[11]
    p4 := le16 a[12] a[13], p5 := le16 a[14] a[15], p6 := le16 a[16] a[17]
    p7 := le16 a[18] a[19], p8 := le16 a[20] a[21], p9 := le16 a[22] a[23]
    h1 := a[25]
    h2 := le16 b[0] b[1], h3 := b[2]
    h4 := packed12 b[3] (lowNibble b[4]), h5 := packed12 b[5] (highNibble b[4])
    h6 := b[6] }

/-- A big-endian 20-bit value with trailing nibble (R53, R76): `(b0 << 12) | (b1 << 4) | b2[7:4]`. -/
def be20 (b0 b1 b2 : Byte) : BitVec 20 := (b0 ++ b1) ++ highNibble b2

/-- `ADC_P` in the raw data image (R76, R123). -/
def rawP (r : Image 8) : BitVec 20 := be20 r[0] r[1] r[2]

/-- `ADC_T` in the raw data image (R76, R123). -/
def rawT (r : Image 8) : BitVec 20 := be20 r[3] r[4] r[5]

/-- `ADC_H` in the raw data image (R76, R123). -/
def rawH (r : Image 8) : BitVec 16 := r[6] ++ r[7]

/-- Bits 7:0 of a 16-bit field. -/
def loByte (v : BitVec 16) : Byte := v.extractLsb' 0 8

/-- Bits 15:8 of a 16-bit field. -/
def hiByte (v : BitVec 16) : Byte := v.extractLsb' 8 8

/-- The pseudo-directive `.raw_adc P, T, H` (R73): the inverse of R76 with the unused nibbles 0. -/
def rawAdcImage (p t : BitVec 20) (h : BitVec 16) : Image 8 :=
  #v[p.extractLsb' 12 8, p.extractLsb' 4 8, p.extractLsb' 0 4 ++ (0 : BitVec 4),
     t.extractLsb' 12 8, t.extractLsb' 4 8, t.extractLsb' 0 4 ++ (0 : BitVec 4),
     hiByte h, loByte h]

/-- The `.cal_a` directive of the pseudo-directive `.cal` (R73): `CAL_A[24]` is 0. -/
def calImageA (c : Calib) : Image 26 :=
  #v[loByte c.t1, hiByte c.t1, loByte c.t2, hiByte c.t2, loByte c.t3, hiByte c.t3,
     loByte c.p1, hiByte c.p1, loByte c.p2, hiByte c.p2, loByte c.p3, hiByte c.p3,
     loByte c.p4, hiByte c.p4, loByte c.p5, hiByte c.p5, loByte c.p6, hiByte c.p6,
     loByte c.p7, hiByte c.p7, loByte c.p8, hiByte c.p8, loByte c.p9, hiByte c.p9,
     0, c.h1]

/-- The `.cal_b` directive of the pseudo-directive `.cal` (R73). -/
def calImageB (c : Calib) : Image 7 :=
  #v[loByte c.h2, hiByte c.h2, c.h3, c.h4.extractLsb' 4 8,
     c.h5.extractLsb' 0 4 ++ c.h4.extractLsb' 0 4, c.h5.extractLsb' 4 8, c.h6]

end Sys2Proof.Machine
end

