-- ==== Sys2Proof/Machine/Ops.lean ====
section
/-! DEFINITION. The named operations on the state: the error primitive (00_scope.md R15), sampling a port (20_memory.md
R56), reading a register (10_state.md R30), the command handshake, and the platform's reset (70_reset_and_hazards.md
R290). There is no trap entry and no return from one (60_exceptions.md R269, R270): `raiseErr` is all an error does. -/

namespace Sys2Proof.Machine

/-- `raise Err(code)` (R15): write `STATUS.ERR`, nothing else. -/
def Cdp.raiseErr (c : Cdp) (code : BitVec 3) : Cdp := { c with status := c.status.setErr code }

/-- A failed MEASURE: `STATUS.RES_VALID <- 0`, `raise Err(code)` (R121, R122, R124). -/
def Cdp.failMeasure (c : Cdp) (code : BitVec 3) : Cdp :=
  Cdp.raiseErr { c with status := c.status.clearResValid } code

/-- The state with other CDP registers. -/
def State.setCdp (s : State) (c : Cdp) : State := { s with cdp := c }

/-- The state after `n` port samples: a port that was never driven shows other values at each sample (U11). -/
def State.sampled (s : State) (n : Nat) : State := { s with draws := s.draws + n }

/-- `CAL_A` as a command samples it (R56): what the host last drove (R294), or free values (U11). -/
def State.seenCalA (s : State) : Image 26 := s.calA.getD (Vector.ofFn fun i => Config.portByte s.draws i.val)

/-- `CAL_B` as a command samples it (R56, R294, U11). -/
def State.seenCalB (s : State) : Image 7 := s.calB.getD (Vector.ofFn fun i => Config.portByte (s.draws + 1) i.val)

/-- `RAW_IN` as a command samples it (R56, R294, U11). -/
def State.seenRaw (s : State) : Image 8 := s.rawIn.getD (Vector.ofFn fun i => Config.portByte s.draws i.val)

/-- The command waiting on `CMD`, and the state once the CDP has taken it. -/
def State.fetch (s : State) : Option (Instr × State) :=
  match s.cmd with
  | none => none
  | some op => some (decodeByte op, { s with cmd := none })

/-- An unsigned register's value. -/
def readU {w : Nat} (r : Option (BitVec w)) : Option RegVal := r.map fun v => .int (v.toNat : Int)

/-- A signed register's value. -/
def readS {w : Nat} (r : Option (BitVec w)) : Option RegVal := r.map fun v => .int v.toInt

/-- A host's read of a register (R30): its value, or `none` where it holds ⊥. -/
def Cdp.read (c : Cdp) : Reg → Option RegVal
  | .t1 => readU (c.cal.map (·.t1))
  | .t2 => readS (c.cal.map (·.t2))
  | .t3 => readS (c.cal.map (·.t3))
  | .p1 => readU (c.cal.map (·.p1))
  | .p2 => readS (c.cal.map (·.p2))
  | .p3 => readS (c.cal.map (·.p3))
  | .p4 => readS (c.cal.map (·.p4))
  | .p5 => readS (c.cal.map (·.p5))
  | .p6 => readS (c.cal.map (·.p6))
  | .p7 => readS (c.cal.map (·.p7))
  | .p8 => readS (c.cal.map (·.p8))
  | .p9 => readS (c.cal.map (·.p9))
  | .h1 => readU (c.cal.map (·.h1))
  | .h2 => readS (c.cal.map (·.h2))
  | .h3 => readU (c.cal.map (·.h3))
  | .h4 => readS (c.cal.map (·.h4))
  | .h5 => readS (c.cal.map (·.h5))
  | .h6 => readS (c.cal.map (·.h6))
  | .adcP => readU c.adcP
  | .adcT => readU c.adcT
  | .adcH => readU c.adcH
  | .tFine => readS c.tFine
  | .tOut => readS c.tOut
  | .pOut => readS c.pOut
  | .hOut => readU c.hOut
  | .tempC => c.tempC.map .float
  | .tempF => c.tempF.map .float
  | .pressHpa => c.pressHpa.map .float
  | .humPct => c.humPct.map .float
  | .status => readU (some c.status.word)

/-- The platform resets the CDP (R290): its registers only; not the ports, the driver or the sensor (R291). -/
def State.resetCdp (s : State) : State := s.setCdp Cdp.reset

end Sys2Proof.Machine
end

