-- ==== Sys2Proof/Machine/Calibration.lean ====
section
/-! DEFINITION. The calibration commands CALLOAD and INVAL (40_calibration.md). -/

namespace Sys2Proof.Machine

/-- The register writes of a CALLOAD that loads: `CAL`, `AVAIL <- 1`, `ERR <- NONE` (R100). -/
def Cdp.loadCal (c : Cdp) (k : Calib) : Cdp := { c with cal := some k, status := c.status.setAvail.setErr errNone }

/-- The register writes of INVAL (R104). -/
def Cdp.invalidate (c : Cdp) : Cdp := { c with cal := none, tFine := none, status := c.status.invalidate }

/-- `CALLOAD` (R100): decode the images while unavailable; while available only `ERR <- NONE` (R102). -/
def execCalload (s : State) : Host.Outcome State Fault Refusal :=
  if s.cdp.status.avail then .next (s.setCdp (s.cdp.raiseErr errNone))
  else .next ((s.sampled 2).setCdp (s.cdp.loadCal (decodeCal s.seenCalA s.seenCalB)))

/-- `INVAL` (R104). -/
def execInval (s : State) : Host.Outcome State Fault Refusal := .next (s.setCdp s.cdp.invalidate)

end Sys2Proof.Machine
end

