-- ==== Sys2Proof/Machine/Arith.lean ====
section
/-! DEFINITION. The integer operators of the evaluators (00_scope.md R12, R13). Values are mathematical integers; each
operator computes its exact result and then narrows it to the block's width `w`. -/

namespace Sys2Proof.Machine

/-- `wrap_W(v) = ((v + 2^(W-1)) mod 2^W) - 2^(W-1)` (R12). -/
def wrap (w : Nat) (v : Int) : Int := (v + ((2 ^ (w - 1) : Nat) : Int)) % ((2 ^ w : Nat) : Int) - ((2 ^ (w - 1) : Nat) : Int)

/-- The result of an operation whose exact result is `v` (R13): wrapped under `OVF_MODE = wrap`; under
`OVF_MODE = fault` no value where wrapping changes it, which is `Overflow` (R266). -/
def narrow (m : OvfMode) (w : Nat) (v : Int) : Option Int :=
  match m with
  | .wrap => some (wrap w v)
  | .fault => if wrap w v = v then some v else none

/-- `a + b` (R13). -/
def opAdd (m : OvfMode) (w : Nat) (a b : Int) : Option Int := narrow m w (a + b)

/-- `a - b` (R13). -/
def opSub (m : OvfMode) (w : Nat) (a b : Int) : Option Int := narrow m w (a - b)

/-- `a * b` (R13). -/
def opMul (m : OvfMode) (w : Nat) (a b : Int) : Option Int := narrow m w (a * b)

/-- `a << n`, multiplication by 2^n also of a negative value (R13). -/
def opShl (m : OvfMode) (w : Nat) (a : Int) (n : Nat) : Option Int := narrow m w (a * ((2 ^ n : Nat) : Int))

/-- `tdiv_W(a, b)` for `b ≠ 0`: the quotient truncated toward zero (R13, R172). -/
def opDiv (m : OvfMode) (w : Nat) (a b : Int) : Option Int := narrow m w (a.tdiv b)

/-- `a >> n`, the floor of `a / 2^n` (R13). It never overflows. -/
def asr (a : Int) (n : Nat) : Int := a / ((2 ^ n : Nat) : Int)

end Sys2Proof.Machine
end

