-- ==== Sys2Proof/Machine/Humidity.lean ====
section
/-! DEFINITION. The humidity evaluator `CompH` (44_humidity.md R190), width 32. -/

namespace Sys2Proof.Machine

/-- The `x` line of R190, for `v = tf - 76800`. -/
def humidityX (m : OvfMode) (adcH v : Int) (cal : Calib) : Option Int := do
  let a ← opSub m 32 (← opShl m 32 adcH 14) (← opShl m 32 cal.h4.toInt 20)
  let b ← opSub m 32 a (← opMul m 32 cal.h5.toInt v)
  return asr (← opAdd m 32 b 16384) 15

/-- The `y` line of R190, for `v = tf - 76800`. -/
def humidityY (m : OvfMode) (v : Int) (cal : Calib) : Option Int := do
  let a := asr (← opMul m 32 v cal.h6.toInt) 10
  let b ← opAdd m 32 (asr (← opMul m 32 v (cal.h3.toNat : Int)) 11) 32768
  let c ← opAdd m 32 (asr (← opMul m 32 a b) 10) 2097152
  return asr (← opAdd m 32 (← opMul m 32 c cal.h2.toInt) 8192) 14

/-- `v` before the clamps (R190). -/
def humidityUnclamped (m : OvfMode) (adcH tf : Int) (cal : Calib) : Option Int := do
  let v ← opSub m 32 tf 76800
  let x ← humidityX m adcH v cal
  let y ← humidityY m v cal
  let v ← opMul m 32 x y
  let sq := asr (← opMul m 32 (asr v 15) (asr v 15)) 7
  opSub m 32 v (asr (← opMul m 32 sq (cal.h1.toNat : Int)) 4)

/-- The clamps to [0, 419430400] (R190, R191). -/
def clampHumidity (v : Int) : Int := if v < 0 then 0 else if 419430400 < v then 419430400 else v

/-- `CompH(adcH, tf, CAL) -> h` (R190). -/
def compH (m : OvfMode) (adcH tf : Int) (cal : Calib) : Option Int := do
  return asr (clampHumidity (← humidityUnclamped m adcH tf cal)) 12

end Sys2Proof.Machine
end

