-- ==== Sys2Proof/Machine/Pressure.lean ====
section
/-! DEFINITION. The pressure evaluator `CompP` (43_pressure.md R170), width 64. -/

namespace Sys2Proof.Machine

/-- `var2` before the division (R170, lines 1 to 4). -/
def pressureOffset (m : OvfMode) (tf : Int) (cal : Calib) : Option Int := do
  let v ← opSub m 64 tf 128000
  let a ← opMul m 64 (← opMul m 64 v v) cal.p6.toInt
  let b ← opAdd m 64 a (← opShl m 64 (← opMul m 64 v cal.p5.toInt) 17)
  opAdd m 64 b (← opShl m 64 cal.p4.toInt 35)

/-- The first-stage denominator term: `var1` after the `>> 33` line (R170, R171). -/
def pressureDenominator (m : OvfMode) (tf : Int) (cal : Calib) : Option Int := do
  let v ← opSub m 64 tf 128000
  let a := asr (← opMul m 64 (← opMul m 64 v v) cal.p3.toInt) 8
  let b ← opAdd m 64 a (← opShl m 64 (← opMul m 64 v cal.p2.toInt) 12)
  return asr (← opMul m 64 (← opAdd m 64 (← opShl m 64 1 47) b) (cal.p1.toNat : Int)) 33

/-- The lines from the division on (R170, R172), for the denominator `den ≠ 0`. -/
def pressureQuotient (m : OvfMode) (adcP den off : Int) (cal : Calib) : Option Int := do
  let p ← opSub m 64 1048576 adcP
  let p ← opDiv m 64 (← opMul m 64 (← opSub m 64 (← opShl m 64 p 31) off) 3125) den
  let var1 := asr (← opMul m 64 (← opMul m 64 cal.p9.toInt (asr p 13)) (asr p 13)) 25
  let var2 := asr (← opMul m 64 cal.p8.toInt p) 19
  opAdd m 64 (asr (← opAdd m 64 (← opAdd m 64 p var1) var2) 8) (← opShl m 64 cal.p7.toInt 4)

/-- `CompP(adcP, tf, CAL) -> (p, z)` (R170) with its zero guard (R171). -/
def compP (m : OvfMode) (adcP tf : Int) (cal : Calib) : Option (Int × Bool) := do
  let off ← pressureOffset m tf cal
  let den ← pressureDenominator m tf cal
  if den = 0 then return (0, true)
  else return (← pressureQuotient m adcP den off cal, false)

end Sys2Proof.Machine
end

