-- ==== Sys2Proof/Machine/Float.lean ====
section
/-! DEFINITION. The floating-point primitives (00_scope.md R16): IEEE 754 values as sign and magnitude pattern, each
operation computed exactly and rounded once to nearest-even. Infinities and NaN are no operands here: R215 and D34 say
that none arises. -/

namespace Sys2Proof.Machine

/-- An IEEE 754 binary format: the precision and the width of the exponent field. -/
structure FloatFmt where
  prec : Nat
  expBits : Nat
  deriving DecidableEq, Repr

/-- binary64. -/
def fmt64 : FloatFmt := { prec := 53, expBits := 11 }

/-- binary32. -/
def fmt32 : FloatFmt := { prec := 24, expBits := 8 }

/-- The least positive value of the format is `2 ^ -scale`: 1074 for binary64, 149 for binary32. -/
def FloatFmt.scale (f : FloatFmt) : Nat := 2 ^ (f.expBits - 1) + f.prec - 3

/-- The magnitude pattern of infinity: the exponent field all ones, the fraction zero. -/
def FloatFmt.infinity (f : FloatFmt) : Nat := (2 ^ f.expBits - 1) * 2 ^ (f.prec - 1)

/-- A floating-point value: its sign bit, and the bits below the sign as a number. -/
structure Flt where
  neg : Bool
  mag : Nat
  deriving DecidableEq, Repr

/-- `n / d` rounded to the nearest integer, ties to even. -/
def roundHalfEven (n d : Nat) : Nat :=
  if d < 2 * (n % d) ∨ (2 * (n % d) = d ∧ n / d % 2 = 1) then n / d + 1 else n / d

/-- The integer part of the binary logarithm of `n / d`, for `n` and `d` not 0. -/
def floorLog2 (n d : Nat) : Int :=
  let k : Int := (Nat.log2 n : Int) - Nat.log2 d
  if d * 2 ^ k.toNat ≤ n * 2 ^ (-k).toNat then k else k - 1

/-- The format's values near `n / d * 2 ^ e` least values are `2 ^ roundShift` least values apart. -/
def roundShift (f : FloatFmt) (n d : Nat) (e : Int) : Nat := (floorLog2 n d + e - (f.prec - 1 : Nat)).toNat

/-- The magnitude pattern of the format's value nearest `n / d * 2 ^ e` times its least value, ties to even, for
`d ≠ 0`. -/
def roundMag (f : FloatFmt) (n d : Nat) (e : Int) : Nat :=
  if n = 0 then 0
  else
    let sh := roundShift f n d e
    min f.infinity
      (sh * 2 ^ (f.prec - 1) + roundHalfEven (n * 2 ^ (e - sh).toNat) (d * 2 ^ ((sh : Int) - e).toNat))

/-- The significand of a finite magnitude pattern, as an integer. -/
def FloatFmt.sig (f : FloatFmt) (mag : Nat) : Nat :=
  if mag / 2 ^ (f.prec - 1) = 0 then mag else mag % 2 ^ (f.prec - 1) + 2 ^ (f.prec - 1)

/-- The exponent of a finite magnitude pattern: its value is `sig * 2 ^ exp` times the least value of the format. -/
def FloatFmt.exp (f : FloatFmt) (mag : Nat) : Nat := mag / 2 ^ (f.prec - 1) - 1

/-- A finite magnitude pattern's value in units of `2 ^ -scale`. -/
def FloatFmt.units (f : FloatFmt) (mag : Nat) : Nat := f.sig mag * 2 ^ f.exp mag

/-- `f64(i)` (R16). -/
def f64OfInt (i : Int) : Flt := { neg := decide (i < 0), mag := roundMag fmt64 i.natAbs 1 fmt64.scale }

/-- `K(c)` for the decimal literal `c = num / den` (R16). -/
def f64Const (num den : Nat) : Flt := { neg := false, mag := roundMag fmt64 num den fmt64.scale }

/-- `x ⊗ y` (R16). -/
def f64Mul (x y : Flt) : Flt :=
  { neg := xor x.neg y.neg
    mag := roundMag fmt64 (fmt64.sig x.mag * fmt64.sig y.mag) 1 ((fmt64.exp x.mag + fmt64.exp y.mag : Nat) - (fmt64.scale : Int)) }

/-- `x ⊘ y` for `y ≠ 0` (R16). -/
def f64Div (x y : Flt) : Flt :=
  { neg := xor x.neg y.neg
    mag := roundMag fmt64 (fmt64.sig x.mag) (fmt64.sig y.mag) ((fmt64.exp x.mag : Int) - fmt64.exp y.mag + fmt64.scale) }

/-- A finite value in units of `2 ^ (e - scale)`, with its sign, for `e` at most its exponent; both zeros give 0. -/
def Flt.signedSig (x : Flt) (e : Nat) : Int :=
  let v : Nat := fmt64.sig x.mag * 2 ^ (fmt64.exp x.mag - e)
  if x.neg then -(v : Int) else v

/-- The exponent to which a sum aligns its operands: the lesser one of the operands that are not 0. -/
def commonExp (x y : Flt) : Nat :=
  if x.mag = 0 then fmt64.exp y.mag else if y.mag = 0 then fmt64.exp x.mag else min (fmt64.exp x.mag) (fmt64.exp y.mag)

/-- `x ⊕ y` (R16). A zero sum is +0 unless both operands are negative. -/
def f64Add (x y : Flt) : Flt :=
  let s := x.signedSig (commonExp x y) + y.signedSig (commonExp x y)
  { neg := if s = 0 then x.neg && y.neg else decide (s < 0), mag := roundMag fmt64 s.natAbs 1 (commonExp x y) }

/-- `x ⊖ y` (R16). -/
def f64Sub (x y : Flt) : Flt := f64Add x { y with neg := !y.neg }

/-- The order of non-NaN values as an integer order, with −0 below +0. -/
def Flt.key (x : Flt) : Int := if x.neg then -(x.mag : Int) - 1 else x.mag

/-- `fmax` on non-NaN operands (R16). -/
def fmax (x y : Flt) : Flt := if x.key < y.key then y else x

/-- `fmin` on non-NaN operands (R16). -/
def fmin (x y : Flt) : Flt := if y.key < x.key then y else x

/-- The value of format `f` rounded to format `g`: `widen` where `g` holds every value of `f`. -/
def convert (f g : FloatFmt) (x : Flt) : Flt :=
  { neg := x.neg, mag := roundMag g (f.sig x.mag) 1 ((f.exp x.mag : Int) + g.scale - f.scale) }

/-- The bit pattern of a value of a format of `w` bits. -/
def packFlt (w : Nat) (x : Flt) : BitVec w := BitVec.ofNat w ((if x.neg then 2 ^ (w - 1) else 0) + x.mag)

/-- The value of a bit pattern. -/
def unpackFlt {w : Nat} (b : BitVec w) : Flt := { neg := b.msb, mag := b.toNat % 2 ^ (w - 1) }

/-- `narrow(x)` as the content of a result register (R16, R216). -/
def narrowFlt (fmt : ResultFmt) (x : Flt) : FloatVal :=
  match fmt with
  | .binary64 => .binary64 (packFlt 64 x)
  | .binary32 => .binary32 (packFlt 32 (convert fmt64 fmt32 x))

/-- `widen(y)`, the exact binary64 value of a result register (R16). -/
def widenFlt : FloatVal → Flt
  | .binary64 b => unpackFlt b
  | .binary32 b => convert fmt32 fmt64 (unpackFlt b)

end Sys2Proof.Machine
end

