-- ==== Sys2Proof/Machine/Scaling.lean ====
section
/-! DEFINITION. The floating-point scaling stage `Scale` (45_scaling.md R210). -/

namespace Sys2Proof.Machine

/-- `TEMP_C = narrow(f64(t) ⊘ K(100.0))` (R211). -/
def scaleTempC (fmt : ResultFmt) (t : Int) : FloatVal := narrowFlt fmt (f64Div (f64OfInt t) (f64Const 100 1))

/-- `TEMP_F = narrow((widen(c) ⊗ K(1.8)) ⊕ K(32.0))` (R212). -/
def scaleTempF (fmt : ResultFmt) (c : FloatVal) : FloatVal :=
  narrowFlt fmt (f64Add (f64Mul (widenFlt c) (f64Const 18 10)) (f64Const 32 1))

/-- `PRESS_HPA = narrow((f64(p) ⊘ K(256.0)) ⊘ K(100.0))` (R213). -/
def scalePress (fmt : ResultFmt) (p : Int) : FloatVal :=
  narrowFlt fmt (f64Div (f64Div (f64OfInt p) (f64Const 256 1)) (f64Const 100 1))

/-- `HUM_PCT = narrow(fmin(fmax(f64(h) ⊘ K(1024.0), +0.0), K(100.0)))` (R214). -/
def scaleHum (fmt : ResultFmt) (h : Int) : FloatVal :=
  narrowFlt fmt (fmin (fmax (f64Div (f64OfInt h) (f64Const 1024 1)) (f64Const 0 1)) (f64Const 100 1))

end Sys2Proof.Machine
end

