-- ==== Sys2Proof/Machine/Temperature.lean ====
section
/-! DEFINITION. The temperature evaluator `CompT` (42_temperature.md R150), width 32. -/

namespace Sys2Proof.Machine

/-- The temperature fine value `tf` (R150): `none` is `Overflow`. -/
def fineTemperature (m : OvfMode) (adcT : Int) (cal : Calib) : Option Int := do
  let t1 : Int := cal.t1.toNat
  let a ← opSub m 32 (asr adcT 3) (← opShl m 32 t1 1)
  let var1 := asr (← opMul m 32 a cal.t2.toInt) 11
  let d ← opSub m 32 (asr adcT 4) t1
  let var2 := asr (← opMul m 32 (asr (← opMul m 32 d d) 12) cal.t3.toInt) 14
  opAdd m 32 var1 var2

/-- `t = (tf * 5 + 128) >> 8` (R150, R153). -/
def temperatureOf (m : OvfMode) (tf : Int) : Option Int := do
  return asr (← opAdd m 32 (← opMul m 32 tf 5) 128) 8

/-- `CompT(adcT, CAL) -> (tf, t)` (R150). -/
def compT (m : OvfMode) (adcT : Int) (cal : Calib) : Option (Int × Int) := do
  let tf ← fineTemperature m adcT cal
  return (tf, ← temperatureOf m tf)

end Sys2Proof.Machine
end

