-- ==== Sys2Proof/Machine/ReadCycle.lean ====
section
/-! DEFINITION. The read-cycle commands NOP, MEASURE and the reserved codes (41_measure.md). -/

namespace Sys2Proof.Machine

/-- What a successful MEASURE computes: the contents of the result registers, and `z`. -/
structure Results where
  tFine : BitVec 32
  tOut : BitVec 32
  pOut : BitVec 64
  hOut : BitVec 32
  tempC : FloatVal
  tempF : FloatVal
  pressHpa : FloatVal
  humPct : FloatVal
  pZero : Bool
  deriving DecidableEq, Repr

/-- The results whose evaluator outputs are `tf`, `t`, `p`, `z` and `h`, with the outputs of `Scale(t, p, h)` (R210). -/
def Results.ofValues (fmt : ResultFmt) (tf t p h : Int) (z : Bool) : Results :=
  { tFine := BitVec.ofInt 32 tf, tOut := BitVec.ofInt 32 t, pOut := BitVec.ofInt 64 p, hOut := BitVec.ofInt 32 h
    tempC := scaleTempC fmt t, tempF := scaleTempF fmt (scaleTempC fmt t)
    pressHpa := scalePress fmt p, humPct := scaleHum fmt h, pZero := z }

/-- CompT, then CompP and CompH on this read's `tf`, then Scale (R121, R126); `none` is `Overflow` (R264, R266). -/
def measureResults (par : Params) (cal : Calib) (adcP adcT : BitVec 20) (adcH : BitVec 16) : Option Results := do
  let (tf, t) ← compT par.ovfMode adcT.toNat cal
  let (p, z) ← compP par.ovfMode adcP.toNat tf cal
  let h ← compH par.ovfMode adcH.toNat tf cal
  return Results.ofValues par.resultFmt tf t p h z

/-- The sentinel check (R124, R125). -/
def isSentinel (par : Params) (adcP adcT : BitVec 20) (adcH : BitVec 16) : Bool :=
  adcT == 0x80000 || adcP == 0x80000 || (par.checkHSentinel && adcH == 0x8000)

/-- `ADC_P <- adcP ; ADC_T <- adcT ; ADC_H <- adcH` (R123). -/
def Cdp.latch (c : Cdp) (r : Image 8) : Cdp := { c with adcP := some (rawP r), adcT := some (rawT r), adcH := some (rawH r) }

/-- The writes of a successful MEASURE after the latches (R121). -/
def Cdp.publish (c : Cdp) (r : Results) : Cdp :=
  { c with
    tFine := some r.tFine, tOut := some r.tOut, pOut := some r.pOut, hOut := some r.hOut
    tempC := some r.tempC, tempF := some r.tempF, pressHpa := some r.pressHpa, humPct := some r.humPct
    status := c.status.publish r.pZero }

/-- `NOP` (R120). -/
def execNop (s : State) : Host.Outcome State Fault Refusal := .next s

/-- The rest of MEASURE once `AVAIL = 1` and `RAW_IN` has been sampled as `r` (R121, R123 to R127, R264). With `CAL = ⊥`, where
`AVAIL` does not mirror `CAL` (R22) and no run comes, there is no calibration to measure with: INVALID_STATE (DESIGN CHOICE,
log 11). -/
def measureSampled (r : Image 8) (s : State) : Host.Outcome State Fault Refusal :=
  if isSentinel s.par (rawP r) (rawT r) (rawH r) then
    .next (s.setCdp ((s.cdp.latch r).failMeasure errInvalidResponse))
  else
    match s.cdp.cal with
    | none => .next (s.setCdp (s.cdp.failMeasure errInvalidState))
    | some k =>
      match measureResults s.par k (rawP r) (rawT r) (rawH r) with
      | none => .fault .overflow
      | some res => .next (s.setCdp ((s.cdp.latch r).publish res))

/-- `MEASURE` (R121). With `AVAIL = 0` it samples nothing (R122). -/
def execMeasure (s : State) : Host.Outcome State Fault Refusal :=
  if s.cdp.status.avail then measureSampled s.seenRaw (s.sampled 1)
  else .next (s.setCdp (s.cdp.failMeasure errInvalidState))

/-- A reserved code (R128): `STATUS.ERR <- ILLEGAL_COMMAND`, whatever the code. -/
def execReserved (_op : Byte) (s : State) : Host.Outcome State Fault Refusal :=
  .next (s.setCdp (s.cdp.raiseErr errIllegalCommand))

end Sys2Proof.Machine
end

