-- ==== Sys2Proof/Machine/Dispatch.lean ====
section
/-! DEFINITION. One arm per command (30_encoding.md R71, R72): the meaning each runs. -/

namespace Sys2Proof.Machine

def exec (i : Instr) (s : State) : Host.Outcome State Fault Refusal :=
  match i with
  | .nop => Sys2Proof.Machine.execNop s
  | .calload => Sys2Proof.Machine.execCalload s
  | .measure => Sys2Proof.Machine.execMeasure s
  | .inval => Sys2Proof.Machine.execInval s
  | .reserved op => Sys2Proof.Machine.execReserved op s

end Sys2Proof.Machine
end

