-- ==== Sys2Proof/Machine/Driver.lean ====
section
/-! DEFINITION. The host driver (46_host_protocol.md): `initialize`, `read`, the locked register transactions and the
lines of a CDP program, one primitive call a step (R248). -/

namespace Sys2Proof.Machine

/-- The address of a candidate (R231). -/
def Candidate.addr : Candidate → BitVec 7
  | .primary => Config.addrPrimary
  | .secondary => Config.addrSecondary

/-- A bus transaction. -/
inductive BusOp where
  | probe (addr : BitVec 7)
  | read (reg : Byte) (n : Nat)
  | write (reg v : Byte)
  deriving DecidableEq, Repr

/-- The transaction made at each point of the procedure (R232 to R234, R240, R241). -/
def Site.op : Site → BusOp
  | .probe c _ => .probe c.addr
  | .chipId _ _ => .read Config.chipIdReg 1
  | .calA _ => .read Config.calibAReg 26
  | .calB _ _ => .read Config.calibBReg 7
  | .softReset _ _ _ => .write Config.resetReg Config.resetCmd
  | .ctrlHum _ _ _ => .write Config.ctrlHumReg Config.ctrlHumVal
  | .ctrlMeas _ _ _ => .write Config.ctrlMeasReg Config.ctrlMeasVal
  | .config _ _ _ => .write Config.configReg Config.configVal
  | .status => .read Config.statusReg 1
  | .data => .read Config.dataReg 8
  | .userRead reg n => .read reg n
  | .userWrite reg v => .write reg v

/-- Whether a transaction fails fast with INVALID_ARGUMENT: no handle, or nothing to read (R236, R237). -/
def BusOp.badArgument (handle : Option Handle) : BusOp → Bool
  | .probe _ => false
  | .read _ n => handle.isNone || n == 0
  | .write _ _ => handle.isNone

/-- The primitive call that carries a transaction out (R232, R236, R237). -/
def BusOp.primCall (hp : HostParams) (handle : Option Handle) : BusOp → PrimCall
  | .probe a => .probe a hp.probeTimeoutMs
  | .read reg n => .writeRead handle reg n hp.xferTimeoutMs
  | .write reg v => .write handle [reg, v] hp.xferTimeoutMs

/-- What a transaction returns, from its draw (R236, R237, R248): a read succeeds with any `n` bytes. -/
def BusOp.outcome (ok : Bool) (bytes : List Byte) : BusOp → TxnResult
  | .probe _ => if ok then .ok [] else .err .timeout
  | .read _ n => if ok && decide (n ≤ bytes.length) then .ok (bytes.take n) else .err .timeout
  | .write _ _ => if ok then .ok [] else .err .timeout

/-- The first `n` of the bytes of a transaction that read `n`; the 0 is never taken. -/
def imageOf (n : Nat) (bytes : List Byte) : Image n := Vector.ofFn fun i => bytes.getD i.val 0

/-- The state with the driver at another point. -/
def State.goto (s : State) (t : Task) : State := { s with driver := { s.driver with task := t } }

/-- A host operation returns. -/
def State.finish (s : State) (r : HostResult) : State := { s with driver := { s.driver with task := .idle, result := some r } }

/-- A host read finds ⊥ in `r` (R14): the model fault `UnsetRead` is recorded (R267), an earlier record stays, and the read
returns no value. No register changes (R30) and the machine goes on. -/
def State.readUnset (s : State) (r : Reg) : State :=
  State.finish { s with unsetRead := some (s.unsetRead.getD r) } (.unset r)

/-- A primitive call, recorded. -/
def State.call (s : State) (c : PrimCall) : State := { s with trace := c :: s.trace }

/-- `handle <- h`. -/
def State.setHandle (s : State) (h : Option Handle) : State := { s with driver := { s.driver with handle := h } }

/-- `addr <- a`. -/
def State.setAddr (s : State) (a : BitVec 7) : State := { s with driver := { s.driver with addr := some a } }

/-- `Cmd(c)`: the command waits on `CMD` for the CDP's next step (R17, R58). -/
def State.issue (s : State) (op : Byte) : State := State.call { s with cmd := some op } (.cmd op)

/-- `CAL_A <- im` (R233, R73). -/
def State.driveCalA (s : State) (im : Image 26) : State := { s with calA := some im }

/-- `CAL_B <- im` (R233, R73). -/
def State.driveCalB (s : State) (im : Image 7) : State := { s with calB := some im }

/-- `RAW_IN <- im` (R242, R73). -/
def State.driveRaw (s : State) (im : Image 8) : State := { s with rawIn := some im }

/-- Start a transaction. -/
def State.transact (s : State) (site : Site) : State := s.goto (.txn site .acquire)

/-- `return NOT_FOUND`, with `handle = none` (R231, R238). -/
def State.notFound (s : State) : State := (s.setHandle none).finish (.err .notFound)

/-- Start `Bringup` of a candidate: its first probe, if any attempt is allowed (R232). -/
def State.bringup (s : State) (c : Candidate) : State :=
  match s.hostPar.probeAttempts with
  | 0 => s.notFound
  | n + 1 => s.transact (.probe c n)

/-- `Bringup` failed: the next candidate address, or NOT_FOUND (R231, R238). -/
def State.nextCandidate (s : State) : Candidate → State
  | .primary => s.bringup .secondary
  | .secondary => s.notFound

/-- After a probe (R232). -/
def State.afterProbe (s : State) (c : Candidate) (left : Nat) : TxnResult → State
  | .ok _ => s.goto (.attach c)
  | .err _ =>
    match left with
    | 0 => s.nextCandidate c
    | n + 1 => s.goto (.probeDelay c n)

/-- After an identity read (R232): both a failed read and a mismatch are retried (D32). -/
def State.afterChipId (s : State) (c : Candidate) (left : Nat) (r : TxnResult) : State :=
  if r = .ok [Config.chipIdValue] then s.transact (.calA c)
  else
    match left with
    | 0 => s.goto (.abandon c)
    | n + 1 => s.goto (.chipIdDelay c n)

/-- After a bring-up step that must succeed (R233, R234). -/
def State.orAbandon (s : State) (c : Candidate) (r : TxnResult) (next : List Byte → Task) : State :=
  match r with
  | .ok bytes => s.goto (next bytes)
  | .err _ => s.goto (.abandon c)

/-- After the status read (R240). -/
def State.afterStatus (s : State) : TxnResult → State
  | .ok bytes => if bytes.getD 0 0 &&& Config.statusBusyMask = 0 then s.transact .data else s.goto .statusWait
  | .err e => s.goto (.drop (.err e))

/-- Where the driver goes on when a transaction has returned `r`. -/
def State.resume (s : State) (r : TxnResult) : Site → State
  | .probe c left => s.afterProbe c left r
  | .chipId c left => s.afterChipId c left r
  | .calA c => s.orAbandon c r fun bytes => .txn (.calB c (imageOf 26 bytes)) .acquire
  | .calB c a => s.orAbandon c r fun bytes => .txn (.softReset c a (imageOf 7 bytes)) .acquire
  | .softReset c a b => s.orAbandon c r fun _ => .settle c a b
  | .ctrlHum c a b => s.orAbandon c r fun _ => .txn (.ctrlMeas c a b) .acquire
  | .ctrlMeas c a b => s.orAbandon c r fun _ => .txn (.config c a b) .acquire
  | .config c a b => s.orAbandon c r fun _ => .load c a b
  | .status => s.afterStatus r
  | .data =>
    match r with
    | .ok bytes => s.goto (.measure (imageOf 8 bytes))
    | .err e => s.goto (.drop (.err e))
  | .userRead _ _ =>
    match r with
    | .ok bytes => s.finish (.bytes bytes)
    | .err e => s.finish (.err e)
  | .userWrite _ _ =>
    match r with
    | .ok _ => s.finish .ok
    | .err e => s.finish (.err e)

/-- One step of a transaction (R235 to R237): check the arguments and take the lock; transfer; release. -/
def txnStep (ok : Bool) (bytes : List Byte) (site : Site) (s : State) : TxnStage → State
  | .acquire =>
    if site.op.badArgument s.driver.handle then s.resume (.err .invalidArgument) site
    else if ok then (s.call (.tryAcquire s.hostPar.lockTimeoutMs true)).goto (.txn site .transfer)
    else (s.call (.tryAcquire s.hostPar.lockTimeoutMs false)).resume (.err .timeout) site
  | .transfer =>
    (s.call (site.op.primCall s.hostPar s.driver.handle)).goto (.txn site (.release (site.op.outcome ok bytes)))
  | .release r => (s.call .release).resume r site

/-- `Attach`, and the first identity read, if any attempt is allowed (R232). -/
def attachStep (handle : Handle) (c : Candidate) (s : State) : State :=
  let s := (s.call (.attach c.addr Config.busSpeed Config.attachParams)).setHandle (some handle)
  match s.hostPar.chipIdAttempts with
  | 0 => s.goto (.abandon c)
  | n + 1 => s.transact (.chipId c n)

/-- `initialize(bus)` (R231). -/
def startInitialize (bus : Bool) (s : State) : State :=
  if bus then if s.cdp.status.avail then s.finish .ok else s.bringup .primary
  else s.finish (.err .invalidArgument)

/-- `read()` (R240); a null output pointer is the caller's bug (R247). -/
def startRead (out : Bool) (s : State) : State :=
  if out then if s.cdp.status.avail then s.transact .status else s.finish (.err .invalidState)
  else s.finish (.err .invalidArgument)

/-- The caller releases the session (40_calibration.md R105): where the driver holds a handle, it detaches and issues INVAL;
else there is nothing to release. -/
def startRelease (s : State) : State := if s.driver.handle.isSome then s.goto (.drop .ok) else s.finish .ok

/-- A host's read of a register between two commands (R30); reading ⊥ is the model fault `UnsetRead` (R267). -/
def readRegister (r : Reg) (s : State) : State :=
  match s.cdp.read r with
  | some v => s.finish (.regVal v)
  | none => s.readUnset r

/-- What the idle driver does when asked. -/
def startCall (s : State) : Call → State
  | .init bus => startInitialize bus s
  | .read out => startRead out s
  | .isAvailable => s.finish (.available s.cdp.status.avail)
  | .release => startRelease s
  | .busRead reg n => s.transact (.userRead reg n)
  | .busWrite reg v => s.transact (.userWrite reg v)
  | .readReg r => readRegister r s
  | .cmd op => s.issue op
  | .driveCalA im => s.driveCalA im
  | .driveCalB im => s.driveCalB im
  | .driveRaw im => s.driveRaw im

/-- `Measurement(TEMP_C, TEMP_F, HUM_PCT, PRESS_HPA)`: the host copies the four registers out (R242); the first of them that
holds ⊥ ends the copy (R267). -/
def returnMeasurement (s : State) : State :=
  match s.cdp.tempC, s.cdp.tempF, s.cdp.humPct, s.cdp.pressHpa with
  | some c, some f, some h, some p => s.finish (.measurement c f h p)
  | none, _, _, _ => s.readUnset .tempC
  | _, none, _, _ => s.readUnset .tempF
  | _, _, none, _ => s.readUnset .humPct
  | _, _, _, none => s.readUnset .pressHpa

/-- `case STATUS.ERR` (R242). -/
def collect (s : State) : State :=
  if s.cdp.status.err = errNone then returnMeasurement s
  else if s.cdp.status.err = errInvalidResponse then s.finish (.err .invalidResponse)
  else if s.cdp.status.err = errInvalidState then s.finish (.err .invalidState)
  else s.finish (.code s.cdp.status.err)

/-- One step of the driver, with what it meets in this turn. The driver always goes on (R248). -/
def driverStep (call : Option Call) (ok : Bool) (handle : Handle) (bytes : List Byte) (s : State) : State :=
  match s.driver.task with
  | .idle =>
    match call with
    | none => s
    | some c => startCall s c
  | .txn site stage => txnStep ok bytes site s stage
  | .probeDelay c left => (s.call (.sleep s.hostPar.probeRetryDelayMs)).transact (.probe c left)
  | .attach c => attachStep handle c s
  | .chipIdDelay c left => (s.call (.sleep s.hostPar.chipIdRetryDelayMs)).transact (.chipId c left)
  | .abandon c => ((s.call (.detach s.driver.handle)).setHandle none).nextCandidate c
  | .settle c a b => (s.call (.sleep s.hostPar.resetSettleMs)).transact (.ctrlHum c a b)
  | .load c a b => (((s.driveCalA a).driveCalB b).issue 0x01).goto (.loaded c)
  | .loaded c => (s.setAddr c.addr).finish .ok
  | .statusWait => (s.call (.sleep s.hostPar.statusWaitMs)).transact .data
  | .drop r => ((s.call (.detach s.driver.handle)).setHandle none).goto (.inval r)
  | .inval r => (s.issue 0x03).goto (.released r)
  | .released r => s.finish r
  | .measure r => ((s.driveRaw r).issue 0x02).goto .collect
  | .collect => collect s

/-- The next turn of the outside world: the oldest one listed, or a free one (R248). -/
def State.nextTurn (s : State) : Turn :=
  match s.env with
  | [] => Config.turn s.draws
  | t :: _ => t

/-- The state once that turn is taken. -/
def State.afterTurn (s : State) : State :=
  match s.env with
  | [] => { s with draws := s.draws + 1 }
  | _ :: rest => { s with env := rest }

/-- A turn with no command waiting on `CMD`: the platform resets the CDP (R290), or the driver acts. -/
def turnStep (s : State) : State :=
  match s.nextTurn with
  | .reset => s.afterTurn.resetCdp
  | .act call ok handle bytes => driverStep call ok handle bytes s.afterTurn

end Sys2Proof.Machine
end

