-- ==== Sys2Proof/Machine/Step.lean ====
section
/-! DEFINITION. One step of the machine: the CDP executes the command that waits on `CMD` (20_memory.md R58), and
where none waits the outside world has its turn (46_host_protocol.md R248). -/

namespace Sys2Proof.Machine

def step (s : State) : Host.Outcome State Fault Refusal :=
  match s.fetch with
  | some (i, s') => exec i s'
  | none => .next (turnStep s)

/-- The state in which the host has issued the command that the decoder reads from an opcode-table word. -/
def State.withFetchWord (s : State) (nbits w : Nat) : State := { s with cmd := (tableBytes nbits w).head? }

end Sys2Proof.Machine
end

