-- ==== Sys2Proof/Machine/Assembler.lean ====
section
/-! DEFINITION. CDP programs (30_encoding.md R73): a program is the list of calls its lines stand for, with the
pseudo-directives and the pseudo-instruction expanded. -/

namespace Sys2Proof.Machine

/-- A mnemonic line, or `.word` for a raw code (R73). -/
def commandLine (i : Instr) : Call := .cmd i.opcode

/-- `.raw_adc P, T, H` (R73). -/
def rawAdcLine (p t : BitVec 20) (h : BitVec 16) : Call := .driveRaw (rawAdcImage p t h)

/-- `.cal T1, …, H6` (R73). -/
def calLines (c : Calib) : List Call := [.driveCalA (calImageA c), .driveCalB (calImageB c)]

/-- `REINIT`: `INVAL` followed by `CALLOAD` (R73). -/
def reinitLines : List Call := [commandLine .inval, commandLine .calload]

/-- The command bytes of a program: its encoding (95_test_vectors.md section 3). A directive issues no command. -/
def programCode : List Call → List Byte
  | [] => []
  | .cmd op :: rest => op :: programCode rest
  | _ :: rest => programCode rest

/-- The turns in which an idle driver is asked for the lines of a program, one after the other. -/
def programTurns (lines : List Call) : List Turn := lines.map fun c => .act (some c) true 0 []

end Sys2Proof.Machine
end

