-- ==== Sys2Proof/Safety.lean ====
section
/-! DEFINITION. What the statements speak about: the invariants of the CDP (10_state.md R22, R27, R32) and of its host
driver (46_host_protocol.md R231 to R238), the discipline of the bus lock (R235), and how long a host operation can still
take, in steps (R248) and in milliseconds (R246). -/

namespace Sys2Proof.Machine

/-- The result registers hold the results `r` (R25, R26, R27). -/
def Cdp.holds (c : Cdp) (r : Results) : Prop :=
  c.tFine = some r.tFine ∧ c.tOut = some r.tOut ∧ c.pOut = some r.pOut ∧ c.hOut = some r.hOut ∧
  c.tempC = some r.tempC ∧ c.tempF = some r.tempF ∧ c.pressHpa = some r.pressHpa ∧ c.humPct = some r.humPct ∧
  c.status.pZero = r.pZero

/-- R22: `AVAIL = 1` exactly where every `CAL` field holds a value. -/
def Cdp.availMirrorsCal (c : Cdp) : Prop := c.status.avail = c.cal.isSome

/-- R32 (ii), (iii): a valid result was computed from the current `CAL` and the current `ADC_*`, which are no sentinel. -/
def Cdp.validResultIsCurrent (par : Params) (c : Cdp) : Prop :=
  c.status.resValid = true →
    c.status.avail = true ∧
    ∃ k p t h r, c.cal = some k ∧ c.adcP = some p ∧ c.adcT = some t ∧ c.adcH = some h ∧
      isSentinel par p t h = false ∧ measureResults par k p t h = some r ∧ c.holds r

/-- R32 (iv), R27: `P_ZERO = 1` means `P_OUT = 0` and `PRESS_HPA = +0.0`, where they hold a value. -/
def Cdp.zeroGuardShows (c : Cdp) : Prop :=
  c.status.pZero = true →
    (∀ v, c.pOut = some v → v = 0) ∧ (∀ v, c.pressHpa = some v → v = .binary64 0 ∨ v = .binary32 0)

/-- R78, U6: the reserved error codes 4 … 7 are never written. -/
def Cdp.errKnown (c : Cdp) : Prop := c.status.err ≤ 3

/-- R20, R25: `H_OUT` is in 0 … 102400. -/
def Cdp.humidityInRange (c : Cdp) : Prop := ∀ v, c.hOut = some v → v.toNat ≤ 102400

/-- The invariant of the CDP's registers. -/
structure Cdp.Inv (par : Params) (c : Cdp) : Prop where
  availMirrorsCal : c.availMirrorsCal
  validResultIsCurrent : c.validResultIsCurrent par
  zeroGuardShows : c.zeroGuardShows
  errKnown : c.errKnown
  humidityInRange : c.humidityInRange

/-- The transactions of `initialize` (R232 to R234). -/
def Site.ofBringup : Site → Bool
  | .probe _ _ | .chipId _ _ | .calA _ | .calB _ _ | .softReset _ _ _ | .ctrlHum _ _ _ | .ctrlMeas _ _ _ | .config _ _ _ => true
  | .status | .data | .userRead _ _ | .userWrite _ _ => false

/-- The driver is between the start of a bring-up and its CALLOAD (R231 to R234). -/
def Task.bringingUp : Task → Bool
  | .txn site _ => site.ofBringup
  | .probeDelay _ _ | .attach _ | .chipIdDelay _ _ | .abandon _ | .settle _ _ _ | .load _ _ _ => true
  | .idle | .loaded _ | .statusWait | .drop _ | .inval _ | .released _ | .measure _ | .collect => false

/-- R231, R233, R238: a bring-up runs on an unavailable CDP, and issues no command before its CALLOAD. -/
def State.bringupUnavailable (s : State) : Prop :=
  s.driver.task.bringingUp = true → s.cdp.status.avail = false ∧ s.cmd = none

/-- Where a sequence of primitive calls stands with respect to the one bus lock (R235). -/
inductive LockPhase where
  /-- The lock is not held. -/
  | free
  /-- The lock is held and the transaction is still to come. -/
  | held
  /-- The lock is held and the transaction has been made. -/
  | used
  deriving DecidableEq, Repr

/-- R235: one transaction in each hold, nothing else; every hold is released; `none` where a call breaks this. -/
def LockPhase.next : LockPhase → PrimCall → Option LockPhase
  | .free, .tryAcquire _ got => some (if got then .held else .free)
  | .free, .sleep _ => some .free
  | .free, .attach _ _ _ => some .free
  | .free, .detach _ => some .free
  | .free, .cmd _ => some .free
  | .held, .probe _ _ => some .used
  | .held, .writeRead _ _ _ _ => some .used
  | .held, .write _ _ _ => some .used
  | .used, .release => some .free
  | _, _ => none

/-- The phase after the calls of a trace, newest first. -/
def lockPhase : List PrimCall → Option LockPhase
  | [] => some .free
  | c :: rest => (lockPhase rest).bind fun ph => ph.next c

/-- The phase in which the driver is at a point of its procedure. -/
def Task.lockPhase : Task → LockPhase
  | .txn _ .transfer => .held
  | .txn _ (.release _) => .used
  | _ => .free

/-- R235: all the driver's calls so far keep the lock discipline, and the lock is held exactly inside a transaction. -/
def State.lockDisciplined (s : State) : Prop := Machine.lockPhase s.trace = some s.driver.task.lockPhase

/-- The invariant of the whole machine. -/
structure State.Inv (s : State) : Prop where
  cdp : s.cdp.Inv s.par
  bringup : s.bringupUnavailable
  lock : s.lockDisciplined

/-- How long a primitive call can take at most, in milliseconds (R246). -/
def PrimCall.ms : PrimCall → Nat
  | .probe _ t | .writeRead _ _ _ t | .write _ _ t | .tryAcquire t _ | .sleep t => t
  | .attach _ _ _ | .detach _ | .release | .cmd _ => 0

/-- The worst-case time of a list of primitive calls. -/
def traceMs (l : List PrimCall) : Nat := (l.map PrimCall.ms).sum

end Sys2Proof.Machine

namespace Sys2Proof

/-- One locked transfer (R246). -/
def HostParams.xferMs (p : HostParams) : Nat := p.lockTimeoutMs + p.xferTimeoutMs

/-- One locked probe (R246). -/
def HostParams.probeMs (p : HostParams) : Nat := p.lockTimeoutMs + p.probeTimeoutMs

/-- The worst-case time of the bring-up of one candidate (R246). -/
def HostParams.candidateMs (p : HostParams) : Nat :=
  p.probeAttempts * p.probeMs + (p.probeAttempts - 1) * p.probeRetryDelayMs +
  p.chipIdAttempts * p.xferMs + (p.chipIdAttempts - 1) * p.chipIdRetryDelayMs + 6 * p.xferMs + p.resetSettleMs

/-- "The worst-case total latency of `initialize`" (R246). -/
def HostParams.initializeMs (p : HostParams) : Nat := 2 * p.candidateMs

/-- "The worst-case latency of `read`" (R246). -/
def HostParams.readMs (p : HostParams) : Nat := 2 * p.xferMs + p.statusWaitMs

end Sys2Proof

namespace Sys2Proof.Machine

/-- The worst-case time still to come in a transaction whose transfer takes at most `x`. -/
def TxnStage.msLeft (lock x : Nat) : TxnStage → Nat
  | .acquire => lock + x
  | .transfer => x
  | .release _ => 0

/-- The worst-case time still to come once a candidate has failed (R231). -/
def Candidate.msAfter (p : HostParams) : Candidate → Nat
  | .primary => p.candidateMs
  | .secondary => 0

/-- The worst-case time still to come after the current transaction (R246). -/
def Site.msAfter (p : HostParams) : Site → Nat
  | .probe c left =>
    c.msAfter p + p.resetSettleMs + 6 * p.xferMs + p.chipIdAttempts * p.xferMs +
      (p.chipIdAttempts - 1) * p.chipIdRetryDelayMs + left * (p.probeMs + p.probeRetryDelayMs)
  | .chipId c left => c.msAfter p + p.resetSettleMs + 6 * p.xferMs + left * (p.xferMs + p.chipIdRetryDelayMs)
  | .calA c => c.msAfter p + p.resetSettleMs + 5 * p.xferMs
  | .calB c _ => c.msAfter p + p.resetSettleMs + 4 * p.xferMs
  | .softReset c _ _ => c.msAfter p + p.resetSettleMs + 3 * p.xferMs
  | .ctrlHum c _ _ => c.msAfter p + 2 * p.xferMs
  | .ctrlMeas c _ _ => c.msAfter p + p.xferMs
  | .config c _ _ => c.msAfter p
  | .status => p.statusWaitMs + p.xferMs
  | .data | .userRead _ _ | .userWrite _ _ => 0

/-- The bound on the transfer of a transaction (R232, R236, R237). -/
def Site.transferMs (p : HostParams) : Site → Nat
  | .probe _ _ => p.probeTimeoutMs
  | _ => p.xferTimeoutMs

/-- The worst-case time still to come in the host operation that is under way (R246). -/
def Task.msLeft (p : HostParams) : Task → Nat
  | .txn site stage => site.msAfter p + stage.msLeft p.lockTimeoutMs (site.transferMs p)
  | .probeDelay c left => p.probeRetryDelayMs + (Site.probe c left).msAfter p + p.probeMs
  | .attach c =>
    c.msAfter p + p.resetSettleMs + 6 * p.xferMs + p.chipIdAttempts * p.xferMs + (p.chipIdAttempts - 1) * p.chipIdRetryDelayMs
  | .chipIdDelay c left => p.chipIdRetryDelayMs + (Site.chipId c left).msAfter p + p.xferMs
  | .abandon c => c.msAfter p
  | .settle c _ _ => p.resetSettleMs + 3 * p.xferMs + c.msAfter p
  | .statusWait => p.statusWaitMs + p.xferMs
  | .idle | .load _ _ _ | .loaded _ | .drop _ | .inval _ | .released _ | .measure _ | .collect => 0

/-- The driver steps still to come in a transaction, at most. -/
def TxnStage.stepsLeft : TxnStage → Nat
  | .acquire => 3
  | .transfer => 2
  | .release _ => 1

/-- The driver steps still to come once a candidate has failed, at most (R231). -/
def Candidate.stepsAfter (p : HostParams) : Candidate → Nat
  | .primary => 23 + 4 * p.chipIdAttempts + 4 * p.probeAttempts
  | .secondary => 0

/-- The driver steps still to come after the current transaction, at most. -/
def Site.stepsAfter (p : HostParams) : Site → Nat
  | .probe c left => c.stepsAfter p + 23 + 4 * p.chipIdAttempts + 4 * left
  | .chipId c left => c.stepsAfter p + 22 + 4 * left
  | .calA c => c.stepsAfter p + 19
  | .calB c _ => c.stepsAfter p + 16
  | .softReset c _ _ => c.stepsAfter p + 13
  | .ctrlHum c _ _ => c.stepsAfter p + 9
  | .ctrlMeas c _ _ => c.stepsAfter p + 6
  | .config c _ _ => c.stepsAfter p + 3
  | .status => 7
  | .data => 3
  | .userRead _ _ | .userWrite _ _ => 0

/-- The driver steps still to come in the host operation that is under way, at most (R248). -/
def Task.stepsLeft (p : HostParams) : Task → Nat
  | .idle => 0
  | .txn site stage => site.stepsAfter p + stage.stepsLeft
  | .probeDelay c left => (Site.probe c left).stepsAfter p + 4
  | .attach c => c.stepsAfter p + 23 + 4 * p.chipIdAttempts
  | .chipIdDelay c left => (Site.chipId c left).stepsAfter p + 4
  | .abandon c => c.stepsAfter p + 1
  | .settle c _ _ => c.stepsAfter p + 13
  | .load c _ _ => c.stepsAfter p + 3
  | .loaded c => c.stepsAfter p + 2
  | .statusWait => 7
  | .drop _ => 3
  | .inval _ => 2
  | .released _ => 1
  | .measure _ => 2
  | .collect => 1

end Sys2Proof.Machine
end

