-- ==== Sys2Proof/Certificates/Slice0/Obligations.lean ====
section
/-! DEFINITION. The statements for the provers. Each docstring names the rules of spec/ the statement formalises. -/

open Sys2Proof Sys2Proof.Machine

namespace Sys2Proof.Certificates

/-! ### Terms of the statements -/

/-- The 18 calibration fields by the table of R74 and the table of R75, over the bytes of the two images. -/
def CalLayout (a : Image 26) (b : Image 7) (k : Calib) : Prop :=
  let le16 (lo hi : Byte) : Int := lo.toNat + 256 * hi.toNat
  (k.t1.toNat : Int) = le16 a[0] a[1] ∧ k.t2.toInt = wrap 16 (le16 a[2] a[3]) ∧ k.t3.toInt = wrap 16 (le16 a[4] a[5]) ∧
  (k.p1.toNat : Int) = le16 a[6] a[7] ∧ k.p2.toInt = wrap 16 (le16 a[8] a[9]) ∧ k.p3.toInt = wrap 16 (le16 a[10] a[11]) ∧
  k.p4.toInt = wrap 16 (le16 a[12] a[13]) ∧ k.p5.toInt = wrap 16 (le16 a[14] a[15]) ∧
  k.p6.toInt = wrap 16 (le16 a[16] a[17]) ∧ k.p7.toInt = wrap 16 (le16 a[18] a[19]) ∧
  k.p8.toInt = wrap 16 (le16 a[20] a[21]) ∧ k.p9.toInt = wrap 16 (le16 a[22] a[23]) ∧
  k.h1 = a[25] ∧ k.h2.toInt = wrap 16 (le16 b[0] b[1]) ∧ k.h3 = b[2] ∧
  k.h4.toInt = wrap 12 (16 * b[3].toNat + b[4].toNat % 16) ∧
  k.h5.toInt = wrap 12 (16 * b[5].toNat + b[4].toNat / 16) ∧
  k.h6.toInt = wrap 8 b[6].toNat

/-- R124, R125: the sentinel condition on the raw values of `r`. -/
def SentinelIn (par : Params) (r : Image 8) : Prop :=
  rawT r = 0x80000 ∨ rawP r = 0x80000 ∨ (par.checkHSentinel = true ∧ rawH r = 0x8000)

/-- The range of `tf` over all inputs of CompT (R151). -/
def FineRange (tf : Int) : Prop := -1179648 ≤ tf ∧ tf ≤ 1179646

/-- The 32-bit two's-complement datapath of R150 for `tf`. -/
def fineDatapath (adcT : BitVec 20) (k : Calib) : BitVec 32 :=
  let x := adcT.setWidth 32
  let t1 := k.t1.setWidth 32
  let a := (x >>> 3) - (t1 <<< 1)
  let d := (x >>> 4) - t1
  (a * k.t2.signExtend 32).sshiftRight 11 + ((d * d).sshiftRight 12 * k.t3.signExtend 32).sshiftRight 14

/-- The 32-bit datapath of R150 for `t`. -/
def temperatureDatapath (tf : BitVec 32) : BitVec 32 := (tf * 5 + 128).sshiftRight 8

/-- The 64-bit datapath of R170 with its zero guard. -/
def pressureDatapath (adcP : BitVec 20) (tf : BitVec 32) (k : Calib) : BitVec 64 × Bool :=
  let v := tf.signExtend 64 - 128000
  let off := v * v * k.p6.signExtend 64 + ((v * k.p5.signExtend 64) <<< 17) + (k.p4.signExtend 64 <<< 35)
  let num := (v * v * k.p3.signExtend 64).sshiftRight 8 + ((v * k.p2.signExtend 64) <<< 12)
  let den := ((((1 : BitVec 64) <<< 47) + num) * k.p1.setWidth 64).sshiftRight 33
  if den = 0 then (0, true)
  else
    let p := ((((1048576 - adcP.setWidth 64) <<< 31) - off) * 3125).sdiv den
    let a := (k.p9.signExtend 64 * p.sshiftRight 13 * p.sshiftRight 13).sshiftRight 25
    let b := (k.p8.signExtend 64 * p).sshiftRight 19
    ((p + a + b).sshiftRight 8 + (k.p7.signExtend 64 <<< 4), false)

/-- The 32-bit datapath of R190 with its clamps. -/
def humidityDatapath (adcH : BitVec 16) (tf : BitVec 32) (k : Calib) : BitVec 32 :=
  let v := tf - 76800
  let x := ((adcH.setWidth 32 <<< 14) - (k.h4.signExtend 32 <<< 20) - k.h5.signExtend 32 * v + 16384).sshiftRight 15
  let g := (v * k.h6.signExtend 32).sshiftRight 10 * ((v * k.h3.setWidth 32).sshiftRight 11 + 32768)
  let y := ((g.sshiftRight 10 + 2097152) * k.h2.signExtend 32 + 8192).sshiftRight 14
  let w := x * y
  let u := w - ((w.sshiftRight 15 * w.sshiftRight 15).sshiftRight 7 * k.h1.setWidth 32).sshiftRight 4
  (if u.slt 0 then 0 else if (419430400 : BitVec 32).slt u then 419430400 else u).sshiftRight 12

/-- `x` is a finite value of the format `f`: its exponent field is not all ones. -/
def Finite (f : FloatFmt) (x : Flt) : Prop := x.mag < f.infinity

/-- The magnitude pattern `m` of format `f` is a finite one nearest to `n / d` times the least value of the format. -/
def Nearest (f : FloatFmt) (n d m : Nat) : Prop :=
  m < f.infinity ∧ ∀ m', m' < f.infinity →
    ((f.units m : Int) * d - n).natAbs ≤ ((f.units m' : Int) * d - n).natAbs

/-- Where two finite patterns are equally near, `m` is the even one. -/
def TiesToEven (f : FloatFmt) (n d m : Nat) : Prop :=
  ∀ m', m' < f.infinity → m' ≠ m →
    ((f.units m : Int) * d - n).natAbs = ((f.units m' : Int) * d - n).natAbs → m % 2 = 0

/-- The magnitude pattern `m` of format `f` is `n / d` times the least value of the format, rounded to nearest, ties to even
(R16). -/
def Rounds (f : FloatFmt) (n d m : Nat) : Prop := Nearest f n d m ∧ TiesToEven f n d m

/-- `narrow` (R16, R216): the register content `v` is the binary64 value with sign `neg` and magnitude pattern `m`, or the
binary32 value nearest to it. -/
def NarrowsTo (neg : Bool) (m : Nat) : ResultFmt → FloatVal → Prop
  | .binary64, v => v = .binary64 (packFlt 64 { neg := neg, mag := m })
  | .binary32, v => ∃ m', Rounds fmt32 (fmt64.units m * 2 ^ fmt32.scale) (2 ^ fmt64.scale) m' ∧
      v = .binary32 (packFlt 32 { neg := neg, mag := m' })

/-- `widen` (R16): `x` is exactly the value of the register content. -/
def WidensTo (x : Flt) : FloatVal → Prop
  | .binary64 b => x = unpackFlt b
  | .binary32 b => x.neg = b.msb ∧ Finite fmt64 x ∧
      fmt64.units x.mag * 2 ^ fmt32.scale = fmt32.units (unpackFlt b).mag * 2 ^ fmt64.scale

/-- The state that a successful MEASURE leaves, from the evaluators' values (R121). The counter `draws` is the model's own
(log 2). -/
def measuredState (s : State) (tf t p h : Int) (z : Bool) : State :=
  { s with
    cdp := { s.cdp with
      adcP := some (rawP s.seenRaw), adcT := some (rawT s.seenRaw), adcH := some (rawH s.seenRaw)
      tFine := some (BitVec.ofInt 32 tf), tOut := some (BitVec.ofInt 32 t)
      pOut := some (BitVec.ofInt 64 p), hOut := some (BitVec.ofInt 32 h)
      tempC := some (scaleTempC s.par.resultFmt t)
      tempF := some (scaleTempF s.par.resultFmt (scaleTempC s.par.resultFmt t))
      pressHpa := some (scalePress s.par.resultFmt p), humPct := some (scaleHum s.par.resultFmt h)
      status := { s.cdp.status with pZero := z, resValid := true, err := 0 } }
    draws := s.draws + 1 }

/-- The registers that INVAL leaves (R104). -/
def invalidated (c : Cdp) : Cdp :=
  { c with cal := none, tFine := none, status := { c.status with avail := false, resValid := false, err := 0 } }

/-- A turn in which the primitive called succeeds and returns `bytes`. -/
def granted (handle : Handle) (bytes : List Byte) : Turn := .act none true handle bytes

/-- A turn in which the primitive called fails. -/
def denied : Turn := .act none false 0 []

/-- A turn in which the caller asks an idle driver for `c`. -/
def asked (c : Call) : Turn := .act (some c) true 0 []

/-- One try of a bus transaction that fails: in the turns `turns` the driver makes the calls `calls`, newest first. Either the
lock is not got, or the transfer `call` is made with a draw that is `bad`, and the lock is released (R235, R236). -/
def FailedTry (s : State) (call : PrimCall) (bad : Bool → List Byte → Prop) (turns : List Turn) (calls : List PrimCall) :
    Prop :=
  (turns = [denied] ∧ calls = [.tryAcquire s.hostPar.lockTimeoutMs false]) ∨
  ∃ ok bytes, bad ok bytes ∧ turns = [granted 0 [], .act none ok 0 bytes, granted 0 []] ∧
    calls = [.release, call, .tryAcquire s.hostPar.lockTimeoutMs true]

/-- The state in which a candidate address has failed, with `k + 1` probe attempts allowed: after the primary one the driver
is at the first probe of the secondary one, after the secondary one it has returned NOT_FOUND (R231, R238). -/
def candidateFailed (s : State) (k : Nat) (handle : Option Handle) (calls : List PrimCall) (rest : List Turn) :
    Candidate → State
  | .primary => { s with
      env := rest, trace := calls ++ s.trace
      driver := { s.driver with handle := handle, task := .txn (.probe .secondary k) .acquire } }
  | .secondary => { s with
      env := rest, trace := calls ++ s.trace
      driver := { s.driver with handle := none, task := .idle, result := some (.err .notFound) } }

/-- `v` is a signed value of `w` bits. -/
abbrev Fits (w : Nat) (v : Int) : Prop := -2 ^ (w - 1) ≤ v ∧ v < 2 ^ (w - 1)

/-- The driver waits, no command waits on `CMD`. -/
def Quiet (s : State) : Prop := s.driver.task = .idle ∧ s.cmd = none

end Sys2Proof.Certificates

open Sys2Proof.Certificates

/-! ### Encoding -/

/-- R70: every command is one byte, and a decoder reads exactly one byte per command, whatever bytes follow; with the four
codes of R71. -/
def Obligations.FourCodesDecode : Prop :=
  (∀ op rest, ∃ i, decode (op :: rest) = .ok (i, rest)) ∧ (∀ i, (encode i).length = 1) ∧
  ∀ rest, decode (0x00 :: rest) = .ok (.nop, rest) ∧ decode (0x01 :: rest) = .ok (.calload, rest) ∧
    decode (0x02 :: rest) = .ok (.measure, rest) ∧ decode (0x03 :: rest) = .ok (.inval, rest)

/-- R72, R128: every other code is reserved, and executing one does nothing but `STATUS.ERR <- ILLEGAL_COMMAND`: no other
register is written. -/
def Obligations.OtherCodesAreReserved : Prop :=
  ∀ (op : Byte), op ≠ 0x00 → op ≠ 0x01 → op ≠ 0x02 → op ≠ 0x03 →
    ∀ (rest : List Byte) (s : State), decode (op :: rest) = .ok (.reserved op, rest) ∧
      exec (.reserved op) s = .next { s with cdp := { s.cdp with status := { s.cdp.status with err := 3 } } }

/-- Decoding the encoding of a well-formed command gives it back, and every byte sequence that decodes is the encoding of
the well-formed command it decodes to, followed by the rest (from R70 to R72). -/
def Obligations.DecodeEncodeAgree : Prop :=
  (∀ (i : Instr) (rest : List Byte), i.wf = true → decode (encode i ++ rest) = .ok (i, rest)) ∧
  ∀ (bs : List Byte) (i : Instr) (rest : List Byte), decode bs = .ok (i, rest) → i.wf = true ∧ bs = encode i ++ rest

/-- The images of the pseudo-directive `.cal` hold exactly the fields given, with `CAL_A[24] = 0`, and every pair of
images with `CAL_A[24] = 0` is the one `.cal` makes of the calibration it holds: no bit is dropped (from R73 to R75). -/
def Obligations.CalibrationImagesRoundTrip : Prop :=
  (∀ k : Calib, decodeCal (calImageA k) (calImageB k) = k ∧ (calImageA k)[24] = 0) ∧
  ∀ (a : Image 26) (b : Image 7), a[24] = 0 → calImageA (decodeCal a b) = a ∧ calImageB (decodeCal a b) = b

/-- The image of the pseudo-directive `.raw_adc` holds exactly the raw values given, and every image whose unused nibbles
are 0 is the one `.raw_adc` makes of the values it holds (from R73, R76). -/
def Obligations.RawImagesRoundTrip : Prop :=
  (∀ (p t : BitVec 20) (h : BitVec 16),
    rawP (rawAdcImage p t h) = p ∧ rawT (rawAdcImage p t h) = t ∧ rawH (rawAdcImage p t h) = h) ∧
  ∀ r : Image 8, lowNibble r[2] = 0 → lowNibble r[5] = 0 → rawAdcImage (rawP r) (rawT r) (rawH r) = r

/-- R76: the raw values as the table assembles them, so the low nibbles of bytes 2 and 5 are ignored. -/
def Obligations.RawImageLayout : Prop :=
  ∀ r : Image 8,
    (rawP r).toNat = r[0].toNat * 2 ^ 12 + r[1].toNat * 2 ^ 4 + r[2].toNat / 16 ∧
    (rawT r).toNat = r[3].toNat * 2 ^ 12 + r[4].toNat * 2 ^ 4 + r[5].toNat / 16 ∧
    (rawH r).toNat = r[6].toNat * 2 ^ 8 + r[7].toNat

/-- R77: the fields of `STATUS` stand at their bits, bits 7:6 read 0, and every field is 0 after reset. -/
def Obligations.StatusFieldsAtTheirBits : Prop :=
  State.reset.cdp.status = { avail := false, resValid := false, pZero := false, err := 0 } ∧
  ∀ st : Status, st.word.getLsbD 0 = st.avail ∧ st.word.getLsbD 1 = st.resValid ∧ st.word.getLsbD 2 = st.pZero ∧
    st.word.extractLsb' 3 3 = st.err ∧ st.word.extractLsb' 6 2 = 0

/-! ### The commands -/

/-- R120: NOP, `CMD = 0x00`, does nothing. -/
def Obligations.NopDoesNothing : Prop :=
  decode [0x00] = .ok (.nop, []) ∧ ∀ s : State, exec .nop s = .next s

/-- While unavailable, CALLOAD, `CMD = 0x01`, completes, decodes the two images it samples into `CAL`, and sets
`AVAIL` and `ERR`; `RES_VALID`, `P_ZERO` and every other register keep their values; while available it only writes
`ERR <- NONE` (from R100, R102). The counter `draws` is the model's own choice (log 2). -/
def Obligations.CalloadDecodesOrKeeps : Prop :=
  decode [0x01] = .ok (.calload, []) ∧ ∀ s : State,
    (s.cdp.status.avail = false → ∃ k, CalLayout s.seenCalA s.seenCalB k ∧
      exec .calload s = .next { s with
        cdp := { s.cdp with cal := some k, status := { s.cdp.status with avail := true, err := 0 } }
        draws := s.draws + 2 }) ∧
    (s.cdp.status.avail = true →
      exec .calload s = .next { s with cdp := { s.cdp with status := { s.cdp.status with err := 0 } } })

/-- R104: INVAL, `CMD = 0x03`, completes in every state: `CAL` and `T_FINE` become ⊥, `AVAIL`, `RES_VALID` and `ERR` 0, and
every other register keeps its value; a second INVAL changes nothing more. -/
def Obligations.InvalReleases : Prop :=
  decode [0x03] = .ok (.inval, []) ∧ ∀ s : State,
    let t : State := { s with
      cdp := { s.cdp with
        cal := none, tFine := none, status := { s.cdp.status with avail := false, resValid := false, err := 0 } } }
    exec .inval s = .next t ∧ exec .inval t = .next t

/-- R122: MEASURE with `AVAIL = 0` writes `RES_VALID <- 0` and `ERR <- INVALID_STATE` and samples nothing, whatever
`RAW_IN` holds. -/
def Obligations.MeasureUnavailable : Prop :=
  ∀ s : State, s.cdp.status.avail = false →
    exec .measure s =
      .next { s with cdp := { s.cdp with status := { s.cdp.status with resValid := false, err := 1 } } }

/-- On a sentinel, humidity's only where it is checked, MEASURE latches the raw values, writes `RES_VALID <- 0` and
`ERR <- INVALID_RESPONSE`, and no result, no `T_FINE`, no `P_ZERO`, no `AVAIL`; and the bytes that hold the 20-bit sentinel
(from R123, R124, R125). The counter `draws` is the model's own choice (log 2). -/
def Obligations.MeasureOnSentinel : Prop :=
  (∀ r : Image 8, (rawP r = 0x80000 ↔ r[0] = 0x80 ∧ r[1] = 0 ∧ r[2].toNat / 16 = 0) ∧
    (rawT r = 0x80000 ↔ r[3] = 0x80 ∧ r[4] = 0 ∧ r[5].toNat / 16 = 0)) ∧
  ∀ s : State, s.cdp.status.avail = true → SentinelIn s.par s.seenRaw →
    exec .measure s = .next { s with
      cdp := { s.cdp with
        adcP := some (rawP s.seenRaw), adcT := some (rawT s.seenRaw), adcH := some (rawH s.seenRaw)
        status := { s.cdp.status with resValid := false, err := 2 } }
      draws := s.draws + 1 }

/-- Without a sentinel, and where the evaluators answer values, MEASURE completes in either overflow mode: CompT's `tf` feeds
CompP and CompH, and every register of the rule gets its value; on the hardware (`OVF_MODE = wrap`) they always answer values
(from R121, R126). The counter `draws` is the model's own (log 2). -/
def Obligations.MeasureComputes : Prop :=
  ∀ (s : State) (k : Calib), s.cdp.status.avail = true → s.cdp.cal = some k → ¬SentinelIn s.par s.seenRaw →
    let computes (tf t p h : Int) (z : Bool) : Prop :=
      compT s.par.ovfMode (rawT s.seenRaw).toNat k = some (tf, t) ∧
      compP s.par.ovfMode (rawP s.seenRaw).toNat tf k = some (p, z) ∧
      compH s.par.ovfMode (rawH s.seenRaw).toNat tf k = some h
    (∀ tf t p h z, computes tf t p h z → exec .measure s = .next (measuredState s tf t p h z)) ∧
    (s.par.ovfMode = .wrap →
      ∃ tf t p h z, computes tf t p h z ∧ exec .measure s = .next (measuredState s tf t p h z))

/-- The model fault `Overflow` is raised by MEASURE alone, only under `OVF_MODE = fault`, after the
availability and sentinel checks, and exactly where an evaluator answers no value (from R264, R266). -/
def Obligations.OverflowOnlyInFaultMode : Prop :=
  ∀ (i : Instr) (s : State), exec i s = .fault .overflow ↔
    i = .measure ∧ s.par.ovfMode = .fault ∧ s.cdp.status.avail = true ∧ ¬SentinelIn s.par s.seenRaw ∧
    ∃ k, s.cdp.cal = some k ∧ measureResults s.par k (rawP s.seenRaw) (rawT s.seenRaw) (rawH s.seenRaw) = none

/-- Every command completes on the hardware (`OVF_MODE = wrap`), in every state: commands never overflow and never stop on a ⊥
register (from R266, R267, R271). In a state in which `AVAIL` does not mirror `CAL`, which R22 rules out, that is the model's
choice (log 11). -/
def Obligations.HardwareCommandsComplete : Prop :=
  ∀ (i : Instr) (s : State), s.par.ovfMode = .wrap → ∃ t, exec i s = .next t

/-! ### The evaluators -/

/-- CompT in closed form: only the three products of R152 need a wrap (from R150, R151, R152). -/
def Obligations.TemperatureClosedForm : Prop :=
  ∀ (adcT : BitVec 20) (k : Calib),
    let x : Int := adcT.toNat
    let d : Int := x / 16 - k.t1.toNat
    let tf : Int :=
      wrap 32 ((x / 8 - 2 * k.t1.toNat) * k.t2.toInt) / 2 ^ 11 +
        wrap 32 (wrap 32 (d * d) / 2 ^ 12 * k.t3.toInt) / 2 ^ 14
    compT .wrap x k = some (tf, (5 * tf + 128) / 256)

/-- CompP in closed form for every `tf` that CompT can give: the lines before the division are exact but for the
denominator's product (from R170, R171, R172, R174). -/
def Obligations.PressureClosedForm : Prop :=
  ∀ (adcP : BitVec 20) (tf : Int) (k : Calib), FineRange tf →
    let v : Int := tf - 128000
    let off : Int := v * v * k.p6.toInt + v * k.p5.toInt * 2 ^ 17 + k.p4.toInt * 2 ^ 35
    let den : Int := wrap 64 ((2 ^ 47 + (v * v * k.p3.toInt / 2 ^ 8 + v * k.p2.toInt * 2 ^ 12)) * k.p1.toNat) / 2 ^ 33
    let q : Int := wrap 64 ((wrap 64 (((1048576 - adcP.toNat) * 2 ^ 31 - off) * 3125)).tdiv den)
    let a : Int := wrap 64 (k.p9.toInt * (q / 2 ^ 13) * (q / 2 ^ 13)) / 2 ^ 25
    let b : Int := wrap 64 (k.p8.toInt * q) / 2 ^ 19
    compP .wrap adcP.toNat tf k =
      if den = 0 then some (0, true)
      else some (wrap 64 (wrap 64 (q + a + b) / 2 ^ 8 + k.p7.toInt * 2 ^ 4), false)

/-- CompH in closed form for every `tf` that CompT can give: one wrap before each right shift (from R190, R191, R193). -/
def Obligations.HumidityClosedForm : Prop :=
  ∀ (adcH : BitVec 16) (tf : Int) (k : Calib), FineRange tf →
    let v : Int := tf - 76800
    let x : Int := wrap 32 (adcH.toNat * 2 ^ 14 - k.h4.toInt * 2 ^ 20 - k.h5.toInt * v + 16384) / 2 ^ 15
    let g : Int := wrap 32 (v * k.h6.toInt / 2 ^ 10 * (v * k.h3.toNat / 2 ^ 11 + 32768)) / 2 ^ 10
    let y : Int := wrap 32 ((g + 2097152) * k.h2.toInt + 8192) / 2 ^ 14
    let w : Int := wrap 32 (x * y)
    let sq : Int := wrap 32 (w / 2 ^ 15 * (w / 2 ^ 15)) / 2 ^ 7
    let u : Int := wrap 32 (w - wrap 32 (sq * k.h1.toNat) / 2 ^ 4)
    compH .wrap adcH.toNat tf k = some (max 0 (min u 419430400) / 2 ^ 12)

/-- CompT on the hardware is a 32-bit two's-complement datapath (from R7, R12, R13, R150). -/
def Obligations.TemperatureIsDatapath : Prop :=
  ∀ (adcT : BitVec 20) (k : Calib),
    compT .wrap adcT.toNat k =
      some ((fineDatapath adcT k).toInt, (temperatureDatapath (fineDatapath adcT k)).toInt)

/-- CompP on the hardware is a 64-bit two's-complement datapath (from R7, R12, R13, R170). -/
def Obligations.PressureIsDatapath : Prop :=
  ∀ (adcP : BitVec 20) (tf : BitVec 32) (k : Calib),
    compP .wrap adcP.toNat tf.toInt k = some ((pressureDatapath adcP tf k).1.toInt, (pressureDatapath adcP tf k).2)

/-- CompH on the hardware is a 32-bit two's-complement datapath (from R7, R12, R13, R190). -/
def Obligations.HumidityIsDatapath : Prop :=
  ∀ (adcH : BitVec 16) (tf : BitVec 32) (k : Calib),
    compH .wrap adcH.toNat tf.toInt k = some (humidityDatapath adcH tf k).toInt

/-- The ranges of CompT's outputs over all inputs and in either mode (from R151). -/
def Obligations.TemperatureRanges : Prop :=
  ∀ (m : OvfMode) (adcT : BitVec 20) (k : Calib) (tf t : Int), compT m adcT.toNat k = some (tf, t) →
    FineRange tf ∧ -23040 ≤ t ∧ t ≤ 23040

/-- Under `OVF_MODE = fault`, CompT overflows exactly where one of the three products leaves s32 (from R152). -/
def Obligations.TemperatureOverflowSites : Prop :=
  ∀ (adcT : BitVec 20) (k : Calib),
    let x : Int := adcT.toNat
    let d : Int := x / 16 - k.t1.toNat
    let s32 (v : Int) : Prop := -2 ^ 31 ≤ v ∧ v < 2 ^ 31
    (compT .fault x k = none ↔
      ¬(s32 ((x / 8 - 2 * k.t1.toNat) * k.t2.toInt) ∧ s32 (d * d) ∧ s32 (d * d / 2 ^ 12 * k.t3.toInt)))

/-- `t` is `5*tf/256` rounded to the nearest integer, exact halves up, for every `tf` that CompT can give (from R153). -/
def Obligations.TemperatureRounding : Prop :=
  ∀ (m : OvfMode) (tf : Int), FineRange tf →
    ∃ t, temperatureOf m tf = some t ∧ -128 ≤ 5 * tf - 256 * t ∧ 5 * tf - 256 * t < 128

/-- The zero guard: it is taken exactly where the denominator is 0; then `p = 0`; the denominator is 0 for every `tf` when
`P1 = 0`, and in general exactly where the wrapped product lies in [0, 2^33 − 1] (from R171). -/
def Obligations.PressureZeroGuard : Prop :=
  ∀ (m : OvfMode) (adcP : BitVec 20) (tf : Int) (k : Calib), FineRange tf →
    (∀ p z, compP m adcP.toNat tf k = some (p, z) →
      (z = true ↔ pressureDenominator m tf k = some 0) ∧ (z = true → p = 0)) ∧
    (k.p1 = 0 → compP m adcP.toNat tf k = some (0, true)) ∧
    (pressureDenominator .wrap tf k = some 0 ↔
      let v : Int := tf - 128000
      let n : Int := wrap 64 ((2 ^ 47 + (v * v * k.p3.toInt / 2 ^ 8 + v * k.p2.toInt * 2 ^ 12)) * k.p1.toNat)
      0 ≤ n ∧ n < 2 ^ 33)

/-- `tdiv_64` truncates toward zero, for every nonzero divisor, but for −2^63 / −1, which wraps to −2^63 or overflows; and
the divisor of CompP lies in [−2^30, 2^30 − 1] (from R13, R172). -/
def Obligations.DivisionTruncates : Prop :=
  (∀ (m : OvfMode) (n d : Int), -2 ^ 63 ≤ n → n < 2 ^ 63 → d ≠ 0 → ¬(n = -2 ^ 63 ∧ d = -1) →
    ∃ q, opDiv m 64 n d = some q ∧ q.natAbs = n.natAbs / d.natAbs ∧ (q ≠ 0 → (0 < q ↔ (0 < n ↔ 0 < d)))) ∧
  opDiv .wrap 64 (-2 ^ 63) (-1) = some (-2 ^ 63) ∧ opDiv .fault 64 (-2 ^ 63) (-1) = none ∧
  ∀ (m : OvfMode) (tf den : Int) (k : Calib), pressureDenominator m tf k = some den → -2 ^ 30 ≤ den ∧ den < 2 ^ 30

/-- The operations before the division that never leave s64: even under `OVF_MODE = fault` the offset has its exact value,
and the raw term is in [1, 1048576] (from R174). -/
def Obligations.PressureOffsetNeverOverflows : Prop :=
  ∀ (m : OvfMode) (adcP : BitVec 20) (tf : Int) (k : Calib), FineRange tf →
    (∃ off, pressureOffset m tf k = some off ∧
      off = (tf - 128000) * (tf - 128000) * k.p6.toInt + (tf - 128000) * k.p5.toInt * 2 ^ 17 + k.p4.toInt * 2 ^ 35 ∧
      -2 ^ 56 < off ∧ off < 2 ^ 56) ∧
    ∃ p, opSub m 64 1048576 adcP.toNat = some p ∧ 1 ≤ p ∧ p ≤ 1048576

/-- The clamps keep humidity in 0 … 102400 for every input and in either mode; `H2 = 0` gives 0 on the hardware; the `x`
line is in [−65536, 65535] (from R191, R192, R193). -/
def Obligations.HumidityClamped : Prop :=
  (∀ (m : OvfMode) (adcH tf h : Int) (k : Calib), compH m adcH tf k = some h → 0 ≤ h ∧ h ≤ 102400) ∧
  (∀ (adcH tf : Int) (k : Calib), k.h2 = 0 → compH .wrap adcH tf k = some 0) ∧
  ∀ (m : OvfMode) (adcH v x : Int) (k : Calib), humidityX m adcH v k = some x → -65536 ≤ x ∧ x ≤ 65535

/-- Where `OVF_MODE = fault` gives results, the hardware gives the same ones; and CompP and CompH under `OVF_MODE = fault`
answer the values of the formulas without any wrap, and no value exactly where one of the operations that can leave s64 or s32
does (from R8, R13, R172, R174, R190, R193, R266). -/
def Obligations.FaultModeAgreesWithHardware : Prop :=
  (∀ (par : Params) (k : Calib) (p t : BitVec 20) (h : BitVec 16) (r : Results),
    measureResults { par with ovfMode := .fault } k p t h = some r →
    measureResults { par with ovfMode := .wrap } k p t h = some r) ∧
  (∀ (adcP : BitVec 20) (tf : Int) (k : Calib), FineRange tf →
    let v : Int := tf - 128000
    let off : Int := v * v * k.p6.toInt + v * k.p5.toInt * 2 ^ 17 + k.p4.toInt * 2 ^ 35
    let prod : Int := (2 ^ 47 + (v * v * k.p3.toInt / 2 ^ 8 + v * k.p2.toInt * 2 ^ 12)) * k.p1.toNat
    let den : Int := prod / 2 ^ 33
    let num : Int := ((1048576 - adcP.toNat) * 2 ^ 31 - off) * 3125
    let q : Int := num.tdiv den
    let a1 : Int := k.p9.toInt * (q / 2 ^ 13)
    let a : Int := a1 * (q / 2 ^ 13)
    let b : Int := k.p8.toInt * q
    let sum : Int := q + a / 2 ^ 25 + b / 2 ^ 19
    compP .fault adcP.toNat tf k =
      if Fits 64 prod then
        if den = 0 then some (0, true)
        else if Fits 64 num ∧ Fits 64 q ∧ Fits 64 a1 ∧ Fits 64 a ∧ Fits 64 b ∧ Fits 64 (q + a / 2 ^ 25) ∧ Fits 64 sum then
          some (sum / 2 ^ 8 + k.p7.toInt * 2 ^ 4, false)
        else none
      else none) ∧
  ∀ (adcH : BitVec 16) (tf : Int) (k : Calib), FineRange tf →
    let v : Int := tf - 76800
    let x1 : Int := adcH.toNat * 2 ^ 14 - k.h4.toInt * 2 ^ 20
    let x2 : Int := x1 - k.h5.toInt * v
    let x : Int := (x2 + 16384) / 2 ^ 15
    let g : Int := v * k.h6.toInt / 2 ^ 10 * (v * k.h3.toNat / 2 ^ 11 + 32768)
    let y1 : Int := (g / 2 ^ 10 + 2097152) * k.h2.toInt
    let y : Int := (y1 + 8192) / 2 ^ 14
    let w : Int := x * y
    let sq : Int := w / 2 ^ 15 * (w / 2 ^ 15)
    let corr : Int := sq / 2 ^ 7 * k.h1.toNat
    let u : Int := w - corr / 2 ^ 4
    compH .fault adcH.toNat tf k =
      if Fits 32 x1 ∧ Fits 32 (k.h5.toInt * v) ∧ Fits 32 x2 ∧ Fits 32 (x2 + 16384) ∧ Fits 32 g ∧ Fits 32 y1 ∧
          Fits 32 (y1 + 8192) ∧ Fits 32 w ∧ Fits 32 sq ∧ Fits 32 corr ∧ Fits 32 u then
        some (max 0 (min u 419430400) / 2 ^ 12)
      else none

/-- The registers are wide enough: they hold exactly the evaluators' integers, `P_OUT` the full s64 value (from R24, R25,
R173). -/
def Obligations.ResultRegistersHoldValues : Prop :=
  ∀ (m : OvfMode) (adcT adcP : BitVec 20) (adcH : BitVec 16) (k : Calib) (tf t p h : Int) (z : Bool),
    compT m adcT.toNat k = some (tf, t) → compP m adcP.toNat tf k = some (p, z) → compH m adcH.toNat tf k = some h →
    (BitVec.ofInt 32 tf).toInt = tf ∧ (BitVec.ofInt 32 t).toInt = t ∧ (BitVec.ofInt 64 p).toInt = p ∧
      ((BitVec.ofInt 32 h).toNat : Int) = h

/-! ### The scaling stage -/

/-- The model's rounding of an exact value `n / d * 2^e`, used by every floating-point operation, is round to nearest, ties
to even, for binary64 and binary32 (from R16). -/
def Obligations.RoundingIsNearestEven : Prop :=
  ∀ (f : FloatFmt), f = fmt64 ∨ f = fmt32 → ∀ (n d : Nat) (e : Int), 0 < d → roundMag f n d e < f.infinity →
    Nearest f (n * 2 ^ e.toNat) (d * 2 ^ (-e).toNat) (roundMag f n d e) ∧
    TiesToEven f (n * 2 ^ e.toNat) (d * 2 ^ (-e).toNat) (roundMag f n d e)

/-- `TEMP_C` is the correctly rounded binary64 value of t/100, narrowed to the register's format; `TEMP_F` is computed from
`TEMP_C` as the register holds it, widened, by a product with `K(1.8)` and a sum with 32, each rounded once, and narrowed
(from R16, R211, R212, R216). -/
def Obligations.TempCCorrectlyRounded : Prop :=
  ∀ (fmt : ResultFmt) (t : Int), -23040 ≤ t → t ≤ 23040 →
    (∃ m, Rounds fmt64 (t.natAbs * 2 ^ fmt64.scale) 100 m ∧ NarrowsTo (decide (t < 0)) m fmt (scaleTempC fmt t)) ∧
    ∃ x k p q, WidensTo x (scaleTempC fmt t) ∧ Rounds fmt64 (18 * 2 ^ fmt64.scale) 10 k ∧
      Rounds fmt64 (fmt64.units x.mag * fmt64.units k) (2 ^ fmt64.scale) p ∧
      let sum : Int := (if x.neg then -(fmt64.units p : Int) else fmt64.units p) + 32 * 2 ^ fmt64.scale
      Rounds fmt64 sum.natAbs 1 q ∧ NarrowsTo (decide (sum < 0)) q fmt (scaleTempF fmt (scaleTempC fmt t))

/-- `PRESS_HPA` for every s64 value p: `f64(p)` rounded, exact where |p| ≤ 2^53, then its quotient by 25600 rounded once, and
narrowed to the register's format; +0.0 where p = 0 (from R16, R213, R216). -/
def Obligations.PressHpaCorrectlyRounded : Prop :=
  (∀ (fmt : ResultFmt) (p : Int), -2 ^ 63 ≤ p → p < 2 ^ 63 →
    ∃ i m, Rounds fmt64 (p.natAbs * 2 ^ fmt64.scale) 1 i ∧
      (p.natAbs ≤ 2 ^ 53 → fmt64.units i = p.natAbs * 2 ^ fmt64.scale) ∧
      Rounds fmt64 (fmt64.units i) 25600 m ∧ NarrowsTo (decide (p < 0)) m fmt (scalePress fmt p)) ∧
  scalePress .binary64 0 = .binary64 0 ∧ scalePress .binary32 0 = .binary32 0

/-- `HUM_PCT` is exactly h/1024 in either format, is never −0.0, and is in [0.0, 100.0] (from R214). -/
def Obligations.HumPctExact : Prop :=
  ∀ h : Int, 0 ≤ h → h ≤ 102400 →
    (∃ b : BitVec 64, scaleHum .binary64 h = .binary64 b ∧ b.msb = false ∧
      (fmt64.units (unpackFlt b).mag : Int) * 1024 = h * 2 ^ fmt64.scale) ∧
    ∃ b : BitVec 32, scaleHum .binary32 h = .binary32 b ∧ b.msb = false ∧
      (fmt32.units (unpackFlt b).mag : Int) * 1024 = h * 2 ^ fmt32.scale

/-- No result is ever NaN or infinite (from R80, R215). -/
def Obligations.FloatResultsFinite : Prop :=
  ∀ (t p h : Int), -23040 ≤ t → t ≤ 23040 → -2 ^ 63 ≤ p → p < 2 ^ 63 → 0 ≤ h → h ≤ 102400 →
    (∀ b, b ∈ [scaleTempC .binary64 t, scaleTempF .binary64 (scaleTempC .binary64 t), scalePress .binary64 p,
        scaleHum .binary64 h] → ∃ v : BitVec 64, b = .binary64 v ∧ Finite fmt64 (unpackFlt v)) ∧
    ∀ b, b ∈ [scaleTempC .binary32 t, scaleTempF .binary32 (scaleTempC .binary32 t), scalePress .binary32 p,
        scaleHum .binary32 h] → ∃ v : BitVec 32, b = .binary32 v ∧ Finite fmt32 (unpackFlt v)

/-! ### The machine -/

/-- A command waiting on `CMD` is executed in the next step, whole; the step runs the command that the byte decodes to, in
the state from which the command has been taken (from R58). That an issued command waits on `CMD` for the next step is the
model's choice (log 3). -/
def Obligations.StepRunsDecodedCommand : Prop :=
  ∀ (s : State) (op : Byte) (i : Instr), s.cmd = some op → decode [op] = .ok (i, []) →
    step s = exec i { s with cmd := none }

/-- After reset `STATUS = 0x00` and every other register of the CDP is ⊥; a reset by the platform, in any state in which no
command waits, leaves the CDP so, and nothing else changes but the turn that is taken: not the ports, not the host's handle
(from R290, R291). That the platform's reset is a turn with no command waiting is the model's choice (log 7, log 13). -/
def Obligations.ResetLeaves : Prop :=
  State.reset.cdp.status.word = 0 ∧ (∀ r, r ≠ Reg.status → State.reset.cdp.read r = none) ∧
  ∀ (s : State) (rest : List Turn), s.cmd = none → s.env = .reset :: rest →
    step s = .next { s with cdp := State.reset.cdp, env := rest }

/-- Between two commands the host reads any register; a register that holds a value gives it and nothing in the
CDP changes; reading ⊥ gives no value and raises the model fault `UnsetRead`, which is recorded (from R14, R30, R267, U10); no
step clears the record, and only a host step, in which some register holds ⊥, makes one (from R267); and what the read of each
register gives: its content in its type, unsigned, signed or a float as it stands (from R12, R20, R77). The model's own: the
turn, its form of the host's act (log 7); that the run goes on after the fault (log 1), and that the record names the first
register (log 30). -/
def Obligations.RegisterReads : Prop :=
  (∀ (s : State) (r : Reg) (rest : List Turn), Quiet s → s.env = asked (.readReg r) :: rest →
    (∀ v, s.cdp.read r = some v →
      step s = .next { s with env := rest, driver := { s.driver with result := some (.regVal v) } }) ∧
    (s.cdp.read r = none → step s = .next { s with
      env := rest, driver := { s.driver with result := some (.unset r) }, unsetRead := some (s.unsetRead.getD r) })) ∧
  (∀ s t : State, step s = .next t →
    (∀ r, s.unsetRead = some r → t.unsetRead = some r) ∧
    (∀ r, s.unsetRead = none → t.unsetRead = some r → s.cmd = none ∧ s.cdp.read r = none)) ∧
  ∀ c : Cdp,
    let cal (f : Calib → Int) : Option RegVal := c.cal.map fun k => .int (f k)
    c.read .t1 = cal (fun k => (k.t1.toNat : Int)) ∧ c.read .t2 = cal (·.t2.toInt) ∧ c.read .t3 = cal (·.t3.toInt) ∧
    c.read .p1 = cal (fun k => (k.p1.toNat : Int)) ∧ c.read .p2 = cal (·.p2.toInt) ∧ c.read .p3 = cal (·.p3.toInt) ∧
    c.read .p4 = cal (·.p4.toInt) ∧ c.read .p5 = cal (·.p5.toInt) ∧ c.read .p6 = cal (·.p6.toInt) ∧
    c.read .p7 = cal (·.p7.toInt) ∧ c.read .p8 = cal (·.p8.toInt) ∧ c.read .p9 = cal (·.p9.toInt) ∧
    c.read .h1 = cal (fun k => (k.h1.toNat : Int)) ∧ c.read .h2 = cal (·.h2.toInt) ∧
    c.read .h3 = cal (fun k => (k.h3.toNat : Int)) ∧ c.read .h4 = cal (·.h4.toInt) ∧ c.read .h5 = cal (·.h5.toInt) ∧
    c.read .h6 = cal (·.h6.toInt) ∧
    c.read .adcP = c.adcP.map (fun v => .int v.toNat) ∧ c.read .adcT = c.adcT.map (fun v => .int v.toNat) ∧
    c.read .adcH = c.adcH.map (fun v => .int v.toNat) ∧
    c.read .tFine = c.tFine.map (fun v => .int v.toInt) ∧ c.read .tOut = c.tOut.map (fun v => .int v.toInt) ∧
    c.read .pOut = c.pOut.map (fun v => .int v.toInt) ∧ c.read .hOut = c.hOut.map (fun v => .int v.toNat) ∧
    c.read .tempC = c.tempC.map .float ∧ c.read .tempF = c.tempF.map .float ∧
    c.read .pressHpa = c.pressHpa.map .float ∧ c.read .humPct = c.humPct.map .float ∧
    c.read .status = some (.int c.status.word.toNat)

/-- A port shows a command what the host last drove, and no command changes a port; an idle host asked for a line of a CDP
program, `.cal_a`, `.cal_b`, `.raw` or a command byte, drives that port with exactly the bytes of the line, or issues that
command, and does nothing else (from R28, R56, R73, R294). The turn in which it is asked and the command that waits on `CMD`
are the model's form of it (log 3, log 7), the record of the call is the model's own (log 8). -/
def Obligations.PortsSampledAsTheyStand : Prop :=
  (∀ (s : State) (a : Image 26), s.calA = some a → s.seenCalA = a) ∧
  (∀ (s : State) (b : Image 7), s.calB = some b → s.seenCalB = b) ∧
  (∀ (s : State) (r : Image 8), s.rawIn = some r → s.seenRaw = r) ∧
  (∀ (i : Instr) (s t : State), exec i s = .next t →
    t.calA = s.calA ∧ t.calB = s.calB ∧ t.rawIn = s.rawIn ∧ t.cmd = s.cmd) ∧
  ∀ (s : State) (rest : List Turn), Quiet s →
    (∀ im, s.env = asked (.driveCalA im) :: rest → step s = .next { s with env := rest, calA := some im }) ∧
    (∀ im, s.env = asked (.driveCalB im) :: rest → step s = .next { s with env := rest, calB := some im }) ∧
    (∀ im, s.env = asked (.driveRaw im) :: rest → step s = .next { s with env := rest, rawIn := some im }) ∧
    ∀ op, s.env = asked (.cmd op) :: rest →
      step s = .next { s with env := rest, cmd := some op, trace := .cmd op :: s.trace }

/-- What each command leaves unchanged: the driver, the parameters and the record of `UnsetRead` always; NOP everything;
CALLOAD every register but `CAL`, `AVAIL`, `ERR`; MEASURE `CAL` and `AVAIL`; INVAL every register but `CAL`, `T_FINE`, `AVAIL`,
`RES_VALID`, `ERR`; a reserved command every register but `ERR` (from R100, R104, R120, R121, R128, R267). -/
def Obligations.CommandFrames : Prop :=
  ∀ (i : Instr) (s t : State), exec i s = .next t →
    (t.driver = s.driver ∧ t.par = s.par ∧ t.hostPar = s.hostPar ∧ t.unsetRead = s.unsetRead ∧ t.env = s.env ∧
      t.trace = s.trace) ∧
    match i with
    | .nop => t = s
    | .calload => t.cdp = { s.cdp with
        cal := t.cdp.cal, status := { s.cdp.status with avail := t.cdp.status.avail, err := t.cdp.status.err } }
    | .measure => t.cdp.cal = s.cdp.cal ∧ t.cdp.status.avail = s.cdp.status.avail
    | .inval => t.cdp = { s.cdp with
        cal := t.cdp.cal, tFine := t.cdp.tFine
        status := { t.cdp.status with pZero := s.cdp.status.pZero } }
    | .reserved _ => t.cdp = { s.cdp with status := { s.cdp.status with err := t.cdp.status.err } }

/-- Errors are precise: a command that leaves an error code other than NONE has written no result register, no `T_FINE`, no
`CAL`, no `P_ZERO` and no `AVAIL`; `RES_VALID` is 0 after INVALID_STATE and INVALID_RESPONSE and unchanged after
ILLEGAL_COMMAND; only INVALID_RESPONSE has latched raw values (from R260, R269). -/
def Obligations.ErrorsArePrecise : Prop :=
  ∀ (i : Instr) (s t : State), i ≠ .nop → exec i s = .next t → t.cdp.status.err ≠ 0 →
    t.cdp = { s.cdp with
      adcP := t.cdp.adcP, adcT := t.cdp.adcT, adcH := t.cdp.adcH
      status := { s.cdp.status with resValid := t.cdp.status.resValid, err := t.cdp.status.err } } ∧
    (t.cdp.status.err = 1 ∨ t.cdp.status.err = 2 → t.cdp.status.resValid = false) ∧
    (t.cdp.status.err = 3 → t.cdp.status.resValid = s.cdp.status.resValid) ∧
    (t.cdp.status.err ≠ 2 → t.cdp.adcP = s.cdp.adcP ∧ t.cdp.adcT = s.cdp.adcT ∧ t.cdp.adcH = s.cdp.adcH)

/-- R262: `ERR` keeps its code until a command other than NOP writes it; every CALLOAD and INVAL writes NONE, a reserved
command ILLEGAL_COMMAND, and a MEASURE NONE exactly where it publishes a result; nothing else but a reset clears it. -/
def Obligations.ErrIsWrittenByEveryCommandButNop : Prop :=
  (∀ s t : State, s.cmd = none → s.nextTurn ≠ .reset → step s = .next t → t.cdp.status.err = s.cdp.status.err) ∧
  ∀ (i : Instr) (s t : State), exec i s = .next t →
    match i with
    | .nop => t.cdp.status.err = s.cdp.status.err
    | .calload => t.cdp.status.err = 0
    | .measure => t.cdp.status.err ≤ 2 ∧ (t.cdp.status.err = 0 ↔ t.cdp.status.resValid = true)
    | .inval => t.cdp.status.err = 0
    | .reserved _ => t.cdp.status.err = 3

/-- A loaded calibration is immutable while the block is available: in one step of the machine only the command INVAL or a
reset of the platform changes it (from R102, R104). -/
def Obligations.CalibrationImmutableWhileAvailable : Prop :=
  ∀ s t : State, s.cdp.status.avail = true → step s = .next t → t.cdp.cal ≠ s.cdp.cal →
    s.cmd = some 0x03 ∨ (s.cmd = none ∧ s.nextTurn = .reset)

/-- MEASURE is a function of `CAL`, `RAW_IN` and the parameters: two states that agree on these and on `AVAIL` get the same
outcome, whatever their old `T_FINE`, results and latches; so repeating MEASURE on the same image changes no register
(from R126, R127). -/
def Obligations.MeasureDependsOnInputsOnly : Prop :=
  ∀ (s s' : State) (r : Image 8), s.par = s'.par → s.cdp.cal = s'.cdp.cal → s.cdp.status.avail = s'.cdp.status.avail →
    s.rawIn = some r → s'.rawIn = some r →
    (∀ e, exec .measure s = .fault e ↔ exec .measure s' = .fault e) ∧
    ∀ t, exec .measure s = .next t → ∃ t', exec .measure s' = .next t' ∧
      t.cdp.status.resValid = t'.cdp.status.resValid ∧ t.cdp.status.err = t'.cdp.status.err ∧
      (t.cdp.status.resValid = true → t.cdp = t'.cdp) ∧ ∃ u, exec .measure t = .next u ∧ u.cdp = t.cdp

/-! ### Invariants -/

/-- The state after reset meets the invariant of the machine (from R32, R235, R290). Its part about the bus lock and the
bring-up rests on the driver being idle with no calls recorded at State.reset, the model's choice (log 18, log 8). -/
def Obligations.ResetMeetsInvariant : Prop := State.reset.Inv

/-- Every step keeps the invariant of the CDP's registers: `AVAIL` mirrors `CAL`; a valid result was computed from the
current `CAL` and `ADC_*`, none of them a sentinel; `P_ZERO` shows as `P_OUT = 0` and `PRESS_HPA = +0.0`; `ERR` is at most
3; `H_OUT` is at most 102400 (from R20, R22, R27, R32, R78). -/
def Obligations.StepKeepsCdpInvariant : Prop :=
  ∀ s t : State, s.cdp.Inv s.par → step s = .next t → t.cdp.Inv t.par

/-- Every step keeps the lock discipline: each bus transaction runs alone inside one hold of the lock, and every hold is
released (from R235). -/
def Obligations.StepKeepsLockDiscipline : Prop :=
  ∀ s t : State, s.lockDisciplined → step s = .next t → t.lockDisciplined

/-- Every step keeps that a bring-up runs on an unavailable CDP with no command issued (from R231, R233). -/
def Obligations.StepKeepsBringupUnavailable : Prop :=
  ∀ s t : State, s.bringupUnavailable → step s = .next t → t.bringupUnavailable

/-- No step changes a parameter (from R8, R9). That the parameters are fields of State which no step writes is the model's
choice (log 4, log 5). -/
def Obligations.ParametersAreFixed : Prop :=
  ∀ s t : State, step s = .next t → t.par = s.par ∧ t.hostPar = s.hostPar

/-- The host never writes a CDP register: a step in which no command waits on `CMD` leaves the registers as they are, but
for a reset of the platform (from R20, R30, R230). -/
def Obligations.HostWritesNoRegister : Prop :=
  ∀ s t : State, s.cmd = none → s.nextTurn ≠ .reset → step s = .next t → t.cdp = s.cdp

/-! ### The host driver -/

/-- `initialize` on a null bus handle, and while available, returns at once; otherwise it starts with a probe of the
primary address, where any attempt is allowed (from R231). That NOT_FOUND sets the handle to none
with no Detach recorded, even from a live handle, is the model's reading (log 16). -/
def Obligations.InitializeStarts : Prop :=
  ∀ (s : State) (bus : Bool) (rest : List Turn), Quiet s → s.env = asked (.init bus) :: rest →
    (bus = false → step s =
      .next { s with env := rest, driver := { s.driver with result := some (.err .invalidArgument) } }) ∧
    (bus = true → s.cdp.status.avail = true → step s =
      .next { s with env := rest, driver := { s.driver with result := some .ok } }) ∧
    (bus = true → s.cdp.status.avail = false → ∀ n, s.hostPar.probeAttempts = n + 1 → step s =
      .next { s with env := rest, driver := { s.driver with task := .txn (.probe .primary n) .acquire } }) ∧
    (bus = true → s.cdp.status.avail = false → s.hostPar.probeAttempts = 0 → step s =
      .next { s with env := rest, driver := { s.driver with handle := none, result := some (.err .notFound) } })

/-- A failed try of a probe or of an identity read, the lock not got, the transfer failed or the identity wrong, is followed by
its delay and the next try while attempts remain; the last failed probe goes on at the next candidate, the secondary address
or NOT_FOUND; the last failed identity read, a failed calibration read and a failed configuration write detach, clear the
handle and go on at the next candidate (from R231 to R234, R238; a mismatch is retried by D32). The model's own: a draw of too
few bytes is a failed transfer (log 22), the turns of the calls and the steps counted (log 7, log 21), `addr` and, at
NOT_FOUND, a handle that was live before (log 16). -/
def Obligations.FailedAttemptsAreRetriedThenGivenUp : Prop :=
  ∀ (s : State) (c : Candidate) (n k : Nat) (h : Handle) (turns : List Turn) (calls : List PrimCall) (rest : List Turn),
    s.cmd = none → s.hostPar.probeAttempts = k + 1 →
    let read (reg : Byte) (n : Nat) : PrimCall := .writeRead (some h) reg n s.hostPar.xferTimeoutMs
    let write (reg v : Byte) : PrimCall := .write (some h) [reg, v] s.hostPar.xferTimeoutMs
    let retried (site : Site) (ms : Nat) : State := { s with
      env := rest, driver := { s.driver with task := .txn site .acquire }, trace := .sleep ms :: calls ++ s.trace }
    let refused : Bool → List Byte → Prop := fun ok _ => ok = false
    let wrongId : Bool → List Byte → Prop := fun ok bytes => ok = false ∨ bytes.head? ≠ some Config.chipIdValue
    let short (m : Nat) : Bool → List Byte → Prop := fun ok bytes => ok = false ∨ bytes.length < m
    let delay : List Turn := [granted 0 []]
    (FailedTry s (.probe c.addr s.hostPar.probeTimeoutMs) refused turns calls →
      (s.driver.task = .txn (.probe c (n + 1)) .acquire → s.env = turns ++ delay ++ rest →
        core.run (turns.length + 1) s = .next (retried (.probe c n) s.hostPar.probeRetryDelayMs)) ∧
      (s.driver.task = .txn (.probe c 0) .acquire → s.env = turns ++ rest →
        core.run turns.length s = .next (candidateFailed s k s.driver.handle calls rest c))) ∧
    (s.driver.handle = some h →
      (FailedTry s (read Config.chipIdReg 1) wrongId turns calls → s.env = turns ++ delay ++ rest →
        (s.driver.task = .txn (.chipId c (n + 1)) .acquire →
          core.run (turns.length + 1) s = .next (retried (.chipId c n) s.hostPar.chipIdRetryDelayMs)) ∧
        (s.driver.task = .txn (.chipId c 0) .acquire →
          core.run (turns.length + 1) s = .next (candidateFailed s k none (.detach (some h) :: calls) rest c))) ∧
      ∀ (a : Image 26) (b : Image 7) (site : Site) (call : PrimCall) (bad : Bool → List Byte → Prop),
        (site, call, bad) = (.calA c, read Config.calibAReg 26, short 26) ∨
        (site, call, bad) = (.calB c a, read Config.calibBReg 7, short 7) ∨
        (site, call, bad) = (.softReset c a b, write Config.resetReg Config.resetCmd, refused) ∨
        (site, call, bad) = (.ctrlHum c a b, write Config.ctrlHumReg Config.ctrlHumVal, refused) ∨
        (site, call, bad) = (.ctrlMeas c a b, write Config.ctrlMeasReg Config.ctrlMeasVal, refused) ∨
        (site, call, bad) = (.config c a b, write Config.configReg Config.configVal, refused) →
        FailedTry s call bad turns calls → s.env = turns ++ delay ++ rest → s.driver.task = .txn site .acquire →
        core.run (turns.length + 1) s = .next (candidateFailed s k none (.detach (some h) :: calls) rest c))

/-- `BusRead(reg, n)`: INVALID_ARGUMENT without a handle or with nothing to read, and no call made; TIMEOUT where the
lock is not got; otherwise acquire, transfer, release, and the bytes, or TIMEOUT where the transfer failed (from
R236). The model's own: a transfer gives the first n of the drawn bytes and fails on fewer (log 22); the argument check takes
a turn, so the counts of steps (log 21). -/
def Obligations.BusReadFollowsTheLock : Prop :=
  ∀ (s : State) (reg : Byte) (n : Nat) (h : Handle) (bytes : List Byte) (rest : List Turn), Quiet s →
    (∀ x, s.driver.handle = none ∨ n = 0 → s.env = asked (.busRead reg n) :: x :: rest → x ≠ .reset →
      core.run 2 s = .next { s with env := rest, driver := { s.driver with result := some (.err .invalidArgument) } }) ∧
    (s.driver.handle.isSome → n ≠ 0 → s.env = asked (.busRead reg n) :: denied :: rest →
      core.run 2 s = .next { s with
        env := rest, driver := { s.driver with result := some (.err .timeout) }
        trace := .tryAcquire s.hostPar.lockTimeoutMs false :: s.trace }) ∧
    (s.driver.handle.isSome → n ≠ 0 → ∀ ok x,
      s.env = asked (.busRead reg n) :: granted h [] :: .act none ok h bytes :: x :: rest → x ≠ .reset →
      core.run 4 s = .next { s with
        env := rest
        driver := { s.driver with
          result := some (if ok = true ∧ n ≤ bytes.length then .bytes (bytes.take n) else .err .timeout) }
        trace := .release :: .writeRead s.driver.handle reg n s.hostPar.xferTimeoutMs ::
          .tryAcquire s.hostPar.lockTimeoutMs true :: s.trace })

/-- `BusWrite(reg, v)`: as `BusRead`, with a two-byte write (from R236, R237). The argument check takes a turn, so the counts
of steps: the model's choice (log 21). -/
def Obligations.BusWriteFollowsTheLock : Prop :=
  ∀ (s : State) (reg v : Byte) (h : Handle) (rest : List Turn), Quiet s →
    (∀ x, s.driver.handle = none → s.env = asked (.busWrite reg v) :: x :: rest → x ≠ .reset →
      core.run 2 s = .next { s with env := rest, driver := { s.driver with result := some (.err .invalidArgument) } }) ∧
    (s.driver.handle.isSome → s.env = asked (.busWrite reg v) :: denied :: rest →
      core.run 2 s = .next { s with
        env := rest, driver := { s.driver with result := some (.err .timeout) }
        trace := .tryAcquire s.hostPar.lockTimeoutMs false :: s.trace }) ∧
    (s.driver.handle.isSome → ∀ ok x,
      s.env = asked (.busWrite reg v) :: granted h [] :: .act none ok h [] :: x :: rest → x ≠ .reset →
      core.run 4 s = .next { s with
        env := rest, driver := { s.driver with result := some (if ok = true then .ok else .err .timeout) }
        trace := .release :: .write s.driver.handle [reg, v] s.hostPar.xferTimeoutMs ::
          .tryAcquire s.hostPar.lockTimeoutMs true :: s.trace })

/-- Where every call succeeds, a bring-up goes from the lock of its probe to Attach, the identity read and the two calibration
reads; then it makes the four configuration writes in their order with the settle delay after the soft reset, presents the
very bytes of the two reads and issues CALLOAD, which the CDP executes; the second part starts at the soft-reset write with
the images held (from R232, R233, R234). The model's own conventions in it: the counter `draws` (log 2), one step for driving
the ports and issuing CALLOAD (log 21), a read returns its n bytes (log 22), Attach never fails (log 27). -/
def Obligations.BringupConfiguresThenLoads : Prop :=
  ∀ (s : State) (c : Candidate) (a : Image 26) (b : Image 7) (h : Handle) (rest : List Turn), s.cmd = none →
    s.cdp.status.avail = false →
    let lock : PrimCall := .tryAcquire s.hostPar.lockTimeoutMs true
    let write (reg v : Byte) : PrimCall := .write (some h) [reg, v] s.hostPar.xferTimeoutMs
    let read (reg : Byte) (n : Nat) : PrimCall := .writeRead (some h) reg n s.hostPar.xferTimeoutMs
    let configured : List PrimCall :=
      [.cmd 0x01,
        .release, write Config.configReg Config.configVal, lock,
        .release, write Config.ctrlMeasReg Config.ctrlMeasVal, lock,
        .release, write Config.ctrlHumReg Config.ctrlHumVal, lock,
        .sleep s.hostPar.resetSettleMs,
        .release, write Config.resetReg Config.resetCmd, lock]
    let identified : List PrimCall :=
      [.release, read Config.calibBReg 7, lock,
        .release, read Config.calibAReg 26, lock,
        .release, read Config.chipIdReg 1, lock,
        .attach c.addr Config.busSpeed Config.attachParams,
        .release, .probe c.addr s.hostPar.probeTimeoutMs, lock]
    let done (calls : List PrimCall) : State := { s with
      cdp := { s.cdp with cal := some (decodeCal a b), status := { s.cdp.status with avail := true, err := 0 } }
      calA := some a, calB := some b, env := rest, draws := s.draws + 2
      driver := { handle := some h, addr := some c.addr, task := .idle, result := some .ok }
      trace := calls ++ s.trace }
    (∀ n k, s.driver.task = .txn (.probe c n) .acquire → s.hostPar.chipIdAttempts = k + 1 →
      s.env = [granted h [], granted h [], granted h [], granted h [], granted h [], granted h [Config.chipIdValue],
        granted h [], granted h [], granted h a.toList, granted h [], granted h [], granted h b.toList, granted h []] ++
          (List.replicate 15 (granted h []) ++ rest) →
      core.run 29 s = .next (done (configured ++ identified))) ∧
    (s.driver.task = .txn (.softReset c a b) .acquire → s.driver.handle = some h →
      s.env = List.replicate 15 (granted h []) ++ rest → core.run 16 s = .next (done configured))

/-- A bring-up that ends without a CALLOAD ends in NOT_FOUND, with no handle and an unavailable CDP: whenever a driver step
leaves a bring-up and the driver is idle (from R231, R238). -/
def Obligations.FailedInitializeIsNotFound : Prop :=
  ∀ (s : State) (call : Option Call) (ok : Bool) (h : Handle) (bytes : List Byte),
    let t := driverStep call ok h bytes s
    s.bringupUnavailable → s.driver.task.bringingUp = true → t.driver.task = .idle →
    t.driver.result = some (.err .notFound) ∧ t.driver.handle = none ∧ t.cdp.status.avail = false ∧ t.cmd = none

/-- A read in which the status read and the data read succeed presents the eight bytes, issues MEASURE, and returns by
`STATUS.ERR`: the four float registers that MEASURE wrote, or INVALID_RESPONSE with the session kept; where the status byte
shows a conversion in progress, one `Sleep(STATUS_WAIT_MS)` stands between the two reads. A read with `AVAIL = 0` returns
INVALID_STATE with no bus access; one with a null output pointer returns INVALID_ARGUMENT, checked first (log 17);
`is_available` returns `AVAIL` (from R230, R240, R241, R242, R247). One step drives `RAW_IN` and issues MEASURE, one step does
the case and the copy: the model's choice (log 21). -/
def Obligations.ReadCycleReturns : Prop :=
  (∀ (s t : State) (h : Handle) (sb : Byte) (r : Image 8) (rest : List Turn), Quiet s →
    s.driver.handle = some h → s.cdp.status.avail = true →
    let busy : Bool := decide (sb &&& Config.statusBusyMask ≠ 0)
    s.env = [asked (.read true), granted h [], granted h [sb], granted h []] ++ (if busy then [granted h []] else []) ++
      [granted h [], granted h r.toList, granted h [], granted h [], granted h []] ++ rest →
    exec .measure { s with rawIn := some r } = .next t →
    ∃ u, core.run (if busy then 11 else 10) s = .next u ∧ u.cdp = t.cdp ∧ u.rawIn = some r ∧ u.env = rest ∧
      u.driver.task = .idle ∧ u.driver.handle = some h ∧
      u.trace = [.cmd 0x02, .release, .writeRead (some h) Config.dataReg 8 s.hostPar.xferTimeoutMs,
        .tryAcquire s.hostPar.lockTimeoutMs true] ++ (if busy then [.sleep s.hostPar.statusWaitMs] else []) ++
        [.release, .writeRead (some h) Config.statusReg 1 s.hostPar.xferTimeoutMs,
          .tryAcquire s.hostPar.lockTimeoutMs true] ++ s.trace ∧
      (t.cdp.status.err = 2 → u.driver.result = some (.err .invalidResponse)) ∧
      (t.cdp.status.err = 0 → ∃ c f hp p, t.cdp.tempC = some c ∧ t.cdp.tempF = some f ∧ t.cdp.humPct = some hp ∧
        t.cdp.pressHpa = some p ∧ u.driver.result = some (.measurement c f hp p))) ∧
  ∀ (s : State) (rest : List Turn), Quiet s →
    let returns (r : HostResult) : Prop := step s = .next { s with env := rest, driver := { s.driver with result := some r } }
    (s.cdp.status.avail = false → s.env = asked (.read true) :: rest → returns (.err .invalidState)) ∧
    (s.env = asked (.read false) :: rest → returns (.err .invalidArgument)) ∧
    (s.env = asked .isAvailable :: rest → returns (.available s.cdp.status.avail))

/-- A failure of the status read or of the data read, in its transfer or because the lock is not got, detaches, clears the
handle, and invalidates the CDP with INVAL before TIMEOUT is returned; a read without a handle does the same and returns
INVALID_ARGUMENT; so does a session's release for another reason, which returns OK (log 29), and which without a handle makes
no call (from R105, R236, R240, R241, R243). The model's own: the step counts (log 21); `Detach` with the handle variable as
it stands, and `addr` left as it is (log 16). -/
def Obligations.ReadFailureInvalidates : Prop :=
  ∀ (s : State) (rest : List Turn), s.cmd = none →
    let released (r : HostResult) (calls : List PrimCall) : State := { s with
      cdp := invalidated s.cdp, env := rest
      driver := { s.driver with handle := none, task := .idle, result := some r }, trace := calls ++ s.trace }
    let turns (n : Nat) : List Turn := List.replicate n (granted 0 []) ++ rest
    (∀ (h : Handle) (site : Site) (reg : Byte) (n : Nat),
      (site, reg, n) = (Site.status, Config.statusReg, 1) ∨ (site, reg, n) = (Site.data, Config.dataReg, 8) →
      (s.driver.handle = some h → s.driver.task = .txn site .transfer → s.env = denied :: turns 4 →
        core.run 6 s = .next (released (.err .timeout)
          [.cmd 0x03, .detach (some h), .release, .writeRead (some h) reg n s.hostPar.xferTimeoutMs])) ∧
      (s.driver.handle = some h → s.driver.task = .txn site .acquire → s.env = denied :: turns 3 →
        core.run 5 s = .next (released (.err .timeout)
          [.cmd 0x03, .detach (some h), .tryAcquire s.hostPar.lockTimeoutMs false])) ∧
      (s.driver.handle = none → s.driver.task = .txn site .acquire → s.env = turns 4 →
        core.run 5 s = .next (released (.err .invalidArgument) [.cmd 0x03, .detach none]))) ∧
    (∀ h, s.driver.handle = some h → s.driver.task = .idle → s.env = asked .release :: turns 3 →
      core.run 5 s = .next (released .ok [.cmd 0x03, .detach (some h)])) ∧
    (s.driver.handle = none → s.driver.task = .idle → s.env = asked .release :: rest →
      step s = .next { s with env := rest, driver := { s.driver with result := some .ok } })

/-- Every host operation ends: each driver step that is no reset of the platform leaves strictly fewer steps to come, under
every draw (from R248). -/
def Obligations.HostOperationsEnd : Prop :=
  ∀ (s : State) (call : Option Call) (ok : Bool) (h : Handle) (bytes : List Byte), s.driver.task ≠ .idle →
    (driverStep call ok h bytes s).driver.task.stepsLeft s.hostPar < s.driver.task.stepsLeft s.hostPar

/-- The worst-case latencies of R246: what a started operation may still take, with what it has taken, never grows; an
`initialize` starts within its bound and a `read` within its own (from R246). The model keeps no time: the
latency is the sum of the bounds of the calls made, the model's reading (log 24). -/
def Obligations.LatencyBounded : Prop :=
  (∀ (s : State) (call : Option Call) (ok : Bool) (h : Handle) (bytes : List Byte), s.driver.task ≠ .idle →
    let t := driverStep call ok h bytes s
    traceMs t.trace + t.driver.task.msLeft s.hostPar ≤ traceMs s.trace + s.driver.task.msLeft s.hostPar) ∧
  (∀ (s : State) (bus : Bool), s.driver.task = .idle →
    (startInitialize bus s).driver.task.msLeft s.hostPar ≤ s.hostPar.initializeMs) ∧
  (∀ (s : State) (out : Bool), s.driver.task = .idle →
    (startRead out s).driver.task.msLeft s.hostPar ≤ s.hostPar.readMs) ∧
  ({} : HostParams).initializeMs = 3930 ∧ ({} : HostParams).readMs = 322
end

