-- ==== Sys2Proof/Laws/Arith.lean ====
section
/-! SUPPORT. What the integer operators of the evaluators can answer (00_scope.md R12, R13). -/

namespace Sys2Proof.Machine

/-- `v` is a value of the signed type `sW` (R12). -/
def InWidth (w : Nat) (v : Int) : Prop := -((2 ^ (w - 1) : Nat) : Int) ≤ v ∧ v < ((2 ^ (w - 1) : Nat) : Int)

theorem two_pow_eq_double {w : Nat} (hw : 0 < w) : ((2 ^ w : Nat) : Int) = 2 * ((2 ^ (w - 1) : Nat) : Int) := by
  obtain ⟨n, rfl⟩ : ∃ n, w = n + 1 := ⟨w - 1, by omega⟩
  simp [pow_succ]; ring

theorem half_pos (w : Nat) : 0 < ((2 ^ (w - 1) : Nat) : Int) := by exact_mod_cast Nat.two_pow_pos _

theorem wrap_inWidth {w : Nat} (hw : 0 < w) (v : Int) : InWidth w (wrap w v) := by
  have h := two_pow_eq_double hw
  have hp := half_pos w
  unfold InWidth wrap
  have h1 := Int.emod_nonneg (v + ((2 ^ (w - 1) : Nat) : Int)) (b := ((2 ^ w : Nat) : Int)) (by omega)
  have h2 := Int.emod_lt_of_pos (v + ((2 ^ (w - 1) : Nat) : Int)) (b := ((2 ^ w : Nat) : Int)) (by omega)
  omega

theorem wrap_of_inWidth {w : Nat} (hw : 0 < w) {v : Int} (hv : InWidth w v) : wrap w v = v := by
  have h := two_pow_eq_double hw
  unfold InWidth at hv
  unfold wrap
  rw [Int.emod_eq_of_lt (by omega) (by omega)]
  omega

theorem wrap_eq_self_iff {w : Nat} (hw : 0 < w) (v : Int) : wrap w v = v ↔ InWidth w v :=
  ⟨fun h => h ▸ wrap_inWidth hw v, wrap_of_inWidth hw⟩

/-- Wrapping is reading the low `w` bits as two's complement. -/
theorem wrap_eq_toInt {w : Nat} (hw : 0 < w) (v : Int) : wrap w v = (BitVec.ofInt w v).toInt := by
  have h := two_pow_eq_double hw
  have hp := half_pos w
  rw [BitVec.toInt_ofInt, Int.bmod_def]
  unfold wrap
  have hc : ((2 ^ w : Nat) : Int) = 2 * ((2 ^ (w - 1) : Nat) : Int) := h
  generalize ((2 ^ (w - 1) : Nat) : Int) = k at *
  rw [hc]
  have h1 := Int.emod_nonneg v (b := 2 * k) (by omega)
  have h2 := Int.emod_lt_of_pos v (b := 2 * k) (by omega)
  have hd := Int.emod_add_mul_ediv v (2 * k)
  split
  · rw [show (v + k) % (2 * k) = v % (2 * k) + k by
      rw [show v + k = (v % (2 * k) + k) + (2 * k) * (v / (2 * k)) by omega, Int.add_mul_emod_self_left,
        Int.emod_eq_of_lt (by omega) (by omega)]]
    omega
  · rw [show (v + k) % (2 * k) = v % (2 * k) - k by
      rw [show v + k = (v % (2 * k) - k) + (2 * k) * (v / (2 * k) + 1) by
        rw [mul_add]; omega, Int.add_mul_emod_self_left, Int.emod_eq_of_lt (by omega) (by omega)]]
    omega

@[simp] theorem narrow_wrap (w : Nat) (v : Int) : narrow .wrap w v = some (wrap w v) := rfl

theorem narrow_fault_iff {w : Nat} (hw : 0 < w) (v r : Int) : narrow .fault w v = some r ↔ InWidth w v ∧ r = v := by
  by_cases h : InWidth w v
  · simp [narrow, wrap_of_inWidth hw h, h, eq_comm]
  · simp [narrow, mt (wrap_eq_self_iff hw v).mp h, h]

/-- All that an operator can answer: a value of the width, which is the exact one where the exact one fits. -/
theorem narrow_spec {m : OvfMode} {w : Nat} (hw : 0 < w) {v r : Int} (h : narrow m w v = some r) :
    InWidth w r ∧ r = wrap w v := by
  cases m with
  | wrap => cases h; exact ⟨wrap_inWidth hw v, rfl⟩
  | fault =>
    obtain ⟨hv, rfl⟩ := (narrow_fault_iff hw v r).mp h
    exact ⟨hv, (wrap_of_inWidth hw hv).symm⟩

/-- In range, an operator answers its exact result in either mode. -/
theorem narrow_of_inWidth (m : OvfMode) {w : Nat} (hw : 0 < w) {v : Int} (hv : InWidth w v) : narrow m w v = some v := by
  cases m with
  | wrap => simp [wrap_of_inWidth hw hv]
  | fault => exact (narrow_fault_iff hw v v).mpr ⟨hv, rfl⟩

/-- An operator never answers more under `OVF_MODE = fault` than under `OVF_MODE = wrap`. -/
theorem narrow_fault_le {w : Nat} {v r : Int} (h : narrow .fault w v = some r) : narrow .wrap w v = some r := by
  unfold narrow at h
  split at h
  · exact h
  · split at h
    · cases h
      simpa using ‹wrap w v = v›
    · cases h

end Sys2Proof.Machine
end

