-- ==== Sys2Proof/Laws/State.lean ====
section
/-! SUPPORT. One lemma per field for each named update of the state, so that no later proof unfolds a record update. -/

namespace Sys2Proof.Machine

/-! ### `Status.setErr` -/

@[simp] theorem Status.setErr_avail (s : Status) (code : BitVec 3) : (s.setErr code).avail = s.avail := rfl
@[simp] theorem Status.setErr_resValid (s : Status) (code : BitVec 3) : (s.setErr code).resValid = s.resValid := rfl
@[simp] theorem Status.setErr_pZero (s : Status) (code : BitVec 3) : (s.setErr code).pZero = s.pZero := rfl
@[simp] theorem Status.setErr_err (s : Status) (code : BitVec 3) : (s.setErr code).err = code := rfl

/-! ### `Status.setAvail` -/

@[simp] theorem Status.setAvail_avail (s : Status) : (s.setAvail).avail = true := rfl
@[simp] theorem Status.setAvail_resValid (s : Status) : (s.setAvail).resValid = s.resValid := rfl
@[simp] theorem Status.setAvail_pZero (s : Status) : (s.setAvail).pZero = s.pZero := rfl
@[simp] theorem Status.setAvail_err (s : Status) : (s.setAvail).err = s.err := rfl

/-! ### `Status.clearResValid` -/

@[simp] theorem Status.clearResValid_avail (s : Status) : (s.clearResValid).avail = s.avail := rfl
@[simp] theorem Status.clearResValid_resValid (s : Status) : (s.clearResValid).resValid = false := rfl
@[simp] theorem Status.clearResValid_pZero (s : Status) : (s.clearResValid).pZero = s.pZero := rfl
@[simp] theorem Status.clearResValid_err (s : Status) : (s.clearResValid).err = s.err := rfl

/-! ### `Status.invalidate` -/

@[simp] theorem Status.invalidate_avail (s : Status) : (s.invalidate).avail = false := rfl
@[simp] theorem Status.invalidate_resValid (s : Status) : (s.invalidate).resValid = false := rfl
@[simp] theorem Status.invalidate_pZero (s : Status) : (s.invalidate).pZero = s.pZero := rfl
@[simp] theorem Status.invalidate_err (s : Status) : (s.invalidate).err = errNone := rfl

/-! ### `Status.publish` -/

@[simp] theorem Status.publish_avail (s : Status) (z : Bool) : (s.publish z).avail = s.avail := rfl
@[simp] theorem Status.publish_resValid (s : Status) (z : Bool) : (s.publish z).resValid = true := rfl
@[simp] theorem Status.publish_pZero (s : Status) (z : Bool) : (s.publish z).pZero = z := rfl
@[simp] theorem Status.publish_err (s : Status) (z : Bool) : (s.publish z).err = errNone := rfl

/-! ### `Cdp.raiseErr` -/

@[simp] theorem Cdp.raiseErr_cal (c : Cdp) (code : BitVec 3) : (c.raiseErr code).cal = c.cal := rfl
@[simp] theorem Cdp.raiseErr_adcP (c : Cdp) (code : BitVec 3) : (c.raiseErr code).adcP = c.adcP := rfl
@[simp] theorem Cdp.raiseErr_adcT (c : Cdp) (code : BitVec 3) : (c.raiseErr code).adcT = c.adcT := rfl
@[simp] theorem Cdp.raiseErr_adcH (c : Cdp) (code : BitVec 3) : (c.raiseErr code).adcH = c.adcH := rfl
@[simp] theorem Cdp.raiseErr_tFine (c : Cdp) (code : BitVec 3) : (c.raiseErr code).tFine = c.tFine := rfl
@[simp] theorem Cdp.raiseErr_tOut (c : Cdp) (code : BitVec 3) : (c.raiseErr code).tOut = c.tOut := rfl
@[simp] theorem Cdp.raiseErr_pOut (c : Cdp) (code : BitVec 3) : (c.raiseErr code).pOut = c.pOut := rfl
@[simp] theorem Cdp.raiseErr_hOut (c : Cdp) (code : BitVec 3) : (c.raiseErr code).hOut = c.hOut := rfl
@[simp] theorem Cdp.raiseErr_tempC (c : Cdp) (code : BitVec 3) : (c.raiseErr code).tempC = c.tempC := rfl
@[simp] theorem Cdp.raiseErr_tempF (c : Cdp) (code : BitVec 3) : (c.raiseErr code).tempF = c.tempF := rfl
@[simp] theorem Cdp.raiseErr_pressHpa (c : Cdp) (code : BitVec 3) : (c.raiseErr code).pressHpa = c.pressHpa := rfl
@[simp] theorem Cdp.raiseErr_humPct (c : Cdp) (code : BitVec 3) : (c.raiseErr code).humPct = c.humPct := rfl
@[simp] theorem Cdp.raiseErr_status (c : Cdp) (code : BitVec 3) : (c.raiseErr code).status = c.status.setErr code := rfl

/-! ### `Cdp.failMeasure` -/

@[simp] theorem Cdp.failMeasure_cal (c : Cdp) (code : BitVec 3) : (c.failMeasure code).cal = c.cal := rfl
@[simp] theorem Cdp.failMeasure_adcP (c : Cdp) (code : BitVec 3) : (c.failMeasure code).adcP = c.adcP := rfl
@[simp] theorem Cdp.failMeasure_adcT (c : Cdp) (code : BitVec 3) : (c.failMeasure code).adcT = c.adcT := rfl
@[simp] theorem Cdp.failMeasure_adcH (c : Cdp) (code : BitVec 3) : (c.failMeasure code).adcH = c.adcH := rfl
@[simp] theorem Cdp.failMeasure_tFine (c : Cdp) (code : BitVec 3) : (c.failMeasure code).tFine = c.tFine := rfl
@[simp] theorem Cdp.failMeasure_tOut (c : Cdp) (code : BitVec 3) : (c.failMeasure code).tOut = c.tOut := rfl
@[simp] theorem Cdp.failMeasure_pOut (c : Cdp) (code : BitVec 3) : (c.failMeasure code).pOut = c.pOut := rfl
@[simp] theorem Cdp.failMeasure_hOut (c : Cdp) (code : BitVec 3) : (c.failMeasure code).hOut = c.hOut := rfl
@[simp] theorem Cdp.failMeasure_tempC (c : Cdp) (code : BitVec 3) : (c.failMeasure code).tempC = c.tempC := rfl
@[simp] theorem Cdp.failMeasure_tempF (c : Cdp) (code : BitVec 3) : (c.failMeasure code).tempF = c.tempF := rfl
@[simp] theorem Cdp.failMeasure_pressHpa (c : Cdp) (code : BitVec 3) : (c.failMeasure code).pressHpa = c.pressHpa := rfl
@[simp] theorem Cdp.failMeasure_humPct (c : Cdp) (code : BitVec 3) : (c.failMeasure code).humPct = c.humPct := rfl
@[simp] theorem Cdp.failMeasure_status (c : Cdp) (code : BitVec 3) : (c.failMeasure code).status = c.status.clearResValid.setErr code := rfl

/-! ### `Cdp.loadCal` -/

@[simp] theorem Cdp.loadCal_cal (c : Cdp) (k : Calib) : (c.loadCal k).cal = some k := rfl
@[simp] theorem Cdp.loadCal_adcP (c : Cdp) (k : Calib) : (c.loadCal k).adcP = c.adcP := rfl
@[simp] theorem Cdp.loadCal_adcT (c : Cdp) (k : Calib) : (c.loadCal k).adcT = c.adcT := rfl
@[simp] theorem Cdp.loadCal_adcH (c : Cdp) (k : Calib) : (c.loadCal k).adcH = c.adcH := rfl
@[simp] theorem Cdp.loadCal_tFine (c : Cdp) (k : Calib) : (c.loadCal k).tFine = c.tFine := rfl
@[simp] theorem Cdp.loadCal_tOut (c : Cdp) (k : Calib) : (c.loadCal k).tOut = c.tOut := rfl
@[simp] theorem Cdp.loadCal_pOut (c : Cdp) (k : Calib) : (c.loadCal k).pOut = c.pOut := rfl
@[simp] theorem Cdp.loadCal_hOut (c : Cdp) (k : Calib) : (c.loadCal k).hOut = c.hOut := rfl
@[simp] theorem Cdp.loadCal_tempC (c : Cdp) (k : Calib) : (c.loadCal k).tempC = c.tempC := rfl
@[simp] theorem Cdp.loadCal_tempF (c : Cdp) (k : Calib) : (c.loadCal k).tempF = c.tempF := rfl
@[simp] theorem Cdp.loadCal_pressHpa (c : Cdp) (k : Calib) : (c.loadCal k).pressHpa = c.pressHpa := rfl
@[simp] theorem Cdp.loadCal_humPct (c : Cdp) (k : Calib) : (c.loadCal k).humPct = c.humPct := rfl
@[simp] theorem Cdp.loadCal_status (c : Cdp) (k : Calib) : (c.loadCal k).status = c.status.setAvail.setErr errNone := rfl

/-! ### `Cdp.invalidate` -/

@[simp] theorem Cdp.invalidate_cal (c : Cdp) : (c.invalidate).cal = none := rfl
@[simp] theorem Cdp.invalidate_adcP (c : Cdp) : (c.invalidate).adcP = c.adcP := rfl
@[simp] theorem Cdp.invalidate_adcT (c : Cdp) : (c.invalidate).adcT = c.adcT := rfl
@[simp] theorem Cdp.invalidate_adcH (c : Cdp) : (c.invalidate).adcH = c.adcH := rfl
@[simp] theorem Cdp.invalidate_tFine (c : Cdp) : (c.invalidate).tFine = none := rfl
@[simp] theorem Cdp.invalidate_tOut (c : Cdp) : (c.invalidate).tOut = c.tOut := rfl
@[simp] theorem Cdp.invalidate_pOut (c : Cdp) : (c.invalidate).pOut = c.pOut := rfl
@[simp] theorem Cdp.invalidate_hOut (c : Cdp) : (c.invalidate).hOut = c.hOut := rfl
@[simp] theorem Cdp.invalidate_tempC (c : Cdp) : (c.invalidate).tempC = c.tempC := rfl
@[simp] theorem Cdp.invalidate_tempF (c : Cdp) : (c.invalidate).tempF = c.tempF := rfl
@[simp] theorem Cdp.invalidate_pressHpa (c : Cdp) : (c.invalidate).pressHpa = c.pressHpa := rfl
@[simp] theorem Cdp.invalidate_humPct (c : Cdp) : (c.invalidate).humPct = c.humPct := rfl
@[simp] theorem Cdp.invalidate_status (c : Cdp) : (c.invalidate).status = c.status.invalidate := rfl

/-! ### `Cdp.latch` -/

@[simp] theorem Cdp.latch_cal (c : Cdp) (r : Image 8) : (c.latch r).cal = c.cal := rfl
@[simp] theorem Cdp.latch_adcP (c : Cdp) (r : Image 8) : (c.latch r).adcP = some (rawP r) := rfl
@[simp] theorem Cdp.latch_adcT (c : Cdp) (r : Image 8) : (c.latch r).adcT = some (rawT r) := rfl
@[simp] theorem Cdp.latch_adcH (c : Cdp) (r : Image 8) : (c.latch r).adcH = some (rawH r) := rfl
@[simp] theorem Cdp.latch_tFine (c : Cdp) (r : Image 8) : (c.latch r).tFine = c.tFine := rfl
@[simp] theorem Cdp.latch_tOut (c : Cdp) (r : Image 8) : (c.latch r).tOut = c.tOut := rfl
@[simp] theorem Cdp.latch_pOut (c : Cdp) (r : Image 8) : (c.latch r).pOut = c.pOut := rfl
@[simp] theorem Cdp.latch_hOut (c : Cdp) (r : Image 8) : (c.latch r).hOut = c.hOut := rfl
@[simp] theorem Cdp.latch_tempC (c : Cdp) (r : Image 8) : (c.latch r).tempC = c.tempC := rfl
@[simp] theorem Cdp.latch_tempF (c : Cdp) (r : Image 8) : (c.latch r).tempF = c.tempF := rfl
@[simp] theorem Cdp.latch_pressHpa (c : Cdp) (r : Image 8) : (c.latch r).pressHpa = c.pressHpa := rfl
@[simp] theorem Cdp.latch_humPct (c : Cdp) (r : Image 8) : (c.latch r).humPct = c.humPct := rfl
@[simp] theorem Cdp.latch_status (c : Cdp) (r : Image 8) : (c.latch r).status = c.status := rfl

/-! ### `Cdp.publish` -/

@[simp] theorem Cdp.publish_cal (c : Cdp) (r : Results) : (c.publish r).cal = c.cal := rfl
@[simp] theorem Cdp.publish_adcP (c : Cdp) (r : Results) : (c.publish r).adcP = c.adcP := rfl
@[simp] theorem Cdp.publish_adcT (c : Cdp) (r : Results) : (c.publish r).adcT = c.adcT := rfl
@[simp] theorem Cdp.publish_adcH (c : Cdp) (r : Results) : (c.publish r).adcH = c.adcH := rfl
@[simp] theorem Cdp.publish_tFine (c : Cdp) (r : Results) : (c.publish r).tFine = some r.tFine := rfl
@[simp] theorem Cdp.publish_tOut (c : Cdp) (r : Results) : (c.publish r).tOut = some r.tOut := rfl
@[simp] theorem Cdp.publish_pOut (c : Cdp) (r : Results) : (c.publish r).pOut = some r.pOut := rfl
@[simp] theorem Cdp.publish_hOut (c : Cdp) (r : Results) : (c.publish r).hOut = some r.hOut := rfl
@[simp] theorem Cdp.publish_tempC (c : Cdp) (r : Results) : (c.publish r).tempC = some r.tempC := rfl
@[simp] theorem Cdp.publish_tempF (c : Cdp) (r : Results) : (c.publish r).tempF = some r.tempF := rfl
@[simp] theorem Cdp.publish_pressHpa (c : Cdp) (r : Results) : (c.publish r).pressHpa = some r.pressHpa := rfl
@[simp] theorem Cdp.publish_humPct (c : Cdp) (r : Results) : (c.publish r).humPct = some r.humPct := rfl
@[simp] theorem Cdp.publish_status (c : Cdp) (r : Results) : (c.publish r).status = c.status.publish r.pZero := rfl

/-! ### `State.setCdp` -/

@[simp] theorem State.setCdp_cdp (s : State) (c : Cdp) : (s.setCdp c).cdp = c := rfl
@[simp] theorem State.setCdp_cmd (s : State) (c : Cdp) : (s.setCdp c).cmd = s.cmd := rfl
@[simp] theorem State.setCdp_calA (s : State) (c : Cdp) : (s.setCdp c).calA = s.calA := rfl
@[simp] theorem State.setCdp_calB (s : State) (c : Cdp) : (s.setCdp c).calB = s.calB := rfl
@[simp] theorem State.setCdp_rawIn (s : State) (c : Cdp) : (s.setCdp c).rawIn = s.rawIn := rfl
@[simp] theorem State.setCdp_par (s : State) (c : Cdp) : (s.setCdp c).par = s.par := rfl
@[simp] theorem State.setCdp_hostPar (s : State) (c : Cdp) : (s.setCdp c).hostPar = s.hostPar := rfl
@[simp] theorem State.setCdp_driver (s : State) (c : Cdp) : (s.setCdp c).driver = s.driver := rfl
@[simp] theorem State.setCdp_unsetRead (s : State) (c : Cdp) : (s.setCdp c).unsetRead = s.unsetRead := rfl
@[simp] theorem State.setCdp_env (s : State) (c : Cdp) : (s.setCdp c).env = s.env := rfl
@[simp] theorem State.setCdp_draws (s : State) (c : Cdp) : (s.setCdp c).draws = s.draws := rfl
@[simp] theorem State.setCdp_trace (s : State) (c : Cdp) : (s.setCdp c).trace = s.trace := rfl

/-! ### `State.sampled` -/

@[simp] theorem State.sampled_cdp (s : State) (n : Nat) : (s.sampled n).cdp = s.cdp := rfl
@[simp] theorem State.sampled_cmd (s : State) (n : Nat) : (s.sampled n).cmd = s.cmd := rfl
@[simp] theorem State.sampled_calA (s : State) (n : Nat) : (s.sampled n).calA = s.calA := rfl
@[simp] theorem State.sampled_calB (s : State) (n : Nat) : (s.sampled n).calB = s.calB := rfl
@[simp] theorem State.sampled_rawIn (s : State) (n : Nat) : (s.sampled n).rawIn = s.rawIn := rfl
@[simp] theorem State.sampled_par (s : State) (n : Nat) : (s.sampled n).par = s.par := rfl
@[simp] theorem State.sampled_hostPar (s : State) (n : Nat) : (s.sampled n).hostPar = s.hostPar := rfl
@[simp] theorem State.sampled_driver (s : State) (n : Nat) : (s.sampled n).driver = s.driver := rfl
@[simp] theorem State.sampled_unsetRead (s : State) (n : Nat) : (s.sampled n).unsetRead = s.unsetRead := rfl
@[simp] theorem State.sampled_env (s : State) (n : Nat) : (s.sampled n).env = s.env := rfl
@[simp] theorem State.sampled_draws (s : State) (n : Nat) : (s.sampled n).draws = s.draws + n := rfl
@[simp] theorem State.sampled_trace (s : State) (n : Nat) : (s.sampled n).trace = s.trace := rfl

/-! ### `State.resetCdp` -/

@[simp] theorem State.resetCdp_cdp (s : State) : (s.resetCdp).cdp = Cdp.reset := rfl
@[simp] theorem State.resetCdp_cmd (s : State) : (s.resetCdp).cmd = s.cmd := rfl
@[simp] theorem State.resetCdp_calA (s : State) : (s.resetCdp).calA = s.calA := rfl
@[simp] theorem State.resetCdp_calB (s : State) : (s.resetCdp).calB = s.calB := rfl
@[simp] theorem State.resetCdp_rawIn (s : State) : (s.resetCdp).rawIn = s.rawIn := rfl
@[simp] theorem State.resetCdp_par (s : State) : (s.resetCdp).par = s.par := rfl
@[simp] theorem State.resetCdp_hostPar (s : State) : (s.resetCdp).hostPar = s.hostPar := rfl
@[simp] theorem State.resetCdp_driver (s : State) : (s.resetCdp).driver = s.driver := rfl
@[simp] theorem State.resetCdp_unsetRead (s : State) : (s.resetCdp).unsetRead = s.unsetRead := rfl
@[simp] theorem State.resetCdp_env (s : State) : (s.resetCdp).env = s.env := rfl
@[simp] theorem State.resetCdp_draws (s : State) : (s.resetCdp).draws = s.draws := rfl
@[simp] theorem State.resetCdp_trace (s : State) : (s.resetCdp).trace = s.trace := rfl

/-! ### `State.goto` -/

@[simp] theorem State.goto_cdp (s : State) (t : Task) : (s.goto t).cdp = s.cdp := rfl
@[simp] theorem State.goto_cmd (s : State) (t : Task) : (s.goto t).cmd = s.cmd := rfl
@[simp] theorem State.goto_calA (s : State) (t : Task) : (s.goto t).calA = s.calA := rfl
@[simp] theorem State.goto_calB (s : State) (t : Task) : (s.goto t).calB = s.calB := rfl
@[simp] theorem State.goto_rawIn (s : State) (t : Task) : (s.goto t).rawIn = s.rawIn := rfl
@[simp] theorem State.goto_par (s : State) (t : Task) : (s.goto t).par = s.par := rfl
@[simp] theorem State.goto_hostPar (s : State) (t : Task) : (s.goto t).hostPar = s.hostPar := rfl
@[simp] theorem State.goto_driver (s : State) (t : Task) : (s.goto t).driver = { s.driver with task := t } := rfl
@[simp] theorem State.goto_unsetRead (s : State) (t : Task) : (s.goto t).unsetRead = s.unsetRead := rfl
@[simp] theorem State.goto_env (s : State) (t : Task) : (s.goto t).env = s.env := rfl
@[simp] theorem State.goto_draws (s : State) (t : Task) : (s.goto t).draws = s.draws := rfl
@[simp] theorem State.goto_trace (s : State) (t : Task) : (s.goto t).trace = s.trace := rfl

/-! ### `State.transact` -/

@[simp] theorem State.transact_cdp (s : State) (site : Site) : (s.transact site).cdp = s.cdp := rfl
@[simp] theorem State.transact_cmd (s : State) (site : Site) : (s.transact site).cmd = s.cmd := rfl
@[simp] theorem State.transact_calA (s : State) (site : Site) : (s.transact site).calA = s.calA := rfl
@[simp] theorem State.transact_calB (s : State) (site : Site) : (s.transact site).calB = s.calB := rfl
@[simp] theorem State.transact_rawIn (s : State) (site : Site) : (s.transact site).rawIn = s.rawIn := rfl
@[simp] theorem State.transact_par (s : State) (site : Site) : (s.transact site).par = s.par := rfl
@[simp] theorem State.transact_hostPar (s : State) (site : Site) : (s.transact site).hostPar = s.hostPar := rfl
@[simp] theorem State.transact_driver (s : State) (site : Site) : (s.transact site).driver = { s.driver with task := .txn site .acquire } := rfl
@[simp] theorem State.transact_unsetRead (s : State) (site : Site) : (s.transact site).unsetRead = s.unsetRead := rfl
@[simp] theorem State.transact_env (s : State) (site : Site) : (s.transact site).env = s.env := rfl
@[simp] theorem State.transact_draws (s : State) (site : Site) : (s.transact site).draws = s.draws := rfl
@[simp] theorem State.transact_trace (s : State) (site : Site) : (s.transact site).trace = s.trace := rfl

/-! ### `State.finish` -/

@[simp] theorem State.finish_cdp (s : State) (r : HostResult) : (s.finish r).cdp = s.cdp := rfl
@[simp] theorem State.finish_cmd (s : State) (r : HostResult) : (s.finish r).cmd = s.cmd := rfl
@[simp] theorem State.finish_calA (s : State) (r : HostResult) : (s.finish r).calA = s.calA := rfl
@[simp] theorem State.finish_calB (s : State) (r : HostResult) : (s.finish r).calB = s.calB := rfl
@[simp] theorem State.finish_rawIn (s : State) (r : HostResult) : (s.finish r).rawIn = s.rawIn := rfl
@[simp] theorem State.finish_par (s : State) (r : HostResult) : (s.finish r).par = s.par := rfl
@[simp] theorem State.finish_hostPar (s : State) (r : HostResult) : (s.finish r).hostPar = s.hostPar := rfl
@[simp] theorem State.finish_driver (s : State) (r : HostResult) : (s.finish r).driver = { s.driver with task := .idle, result := some r } := rfl
@[simp] theorem State.finish_unsetRead (s : State) (r : HostResult) : (s.finish r).unsetRead = s.unsetRead := rfl
@[simp] theorem State.finish_env (s : State) (r : HostResult) : (s.finish r).env = s.env := rfl
@[simp] theorem State.finish_draws (s : State) (r : HostResult) : (s.finish r).draws = s.draws := rfl
@[simp] theorem State.finish_trace (s : State) (r : HostResult) : (s.finish r).trace = s.trace := rfl

/-! ### `State.readUnset` -/

@[simp] theorem State.readUnset_cdp (s : State) (r : Reg) : (s.readUnset r).cdp = s.cdp := rfl
@[simp] theorem State.readUnset_cmd (s : State) (r : Reg) : (s.readUnset r).cmd = s.cmd := rfl
@[simp] theorem State.readUnset_calA (s : State) (r : Reg) : (s.readUnset r).calA = s.calA := rfl
@[simp] theorem State.readUnset_calB (s : State) (r : Reg) : (s.readUnset r).calB = s.calB := rfl
@[simp] theorem State.readUnset_rawIn (s : State) (r : Reg) : (s.readUnset r).rawIn = s.rawIn := rfl
@[simp] theorem State.readUnset_par (s : State) (r : Reg) : (s.readUnset r).par = s.par := rfl
@[simp] theorem State.readUnset_hostPar (s : State) (r : Reg) : (s.readUnset r).hostPar = s.hostPar := rfl
@[simp] theorem State.readUnset_driver (s : State) (r : Reg) : (s.readUnset r).driver = { s.driver with task := .idle, result := some (.unset r) } := rfl
@[simp] theorem State.readUnset_unsetRead (s : State) (r : Reg) : (s.readUnset r).unsetRead = some (s.unsetRead.getD r) := rfl
@[simp] theorem State.readUnset_env (s : State) (r : Reg) : (s.readUnset r).env = s.env := rfl
@[simp] theorem State.readUnset_draws (s : State) (r : Reg) : (s.readUnset r).draws = s.draws := rfl
@[simp] theorem State.readUnset_trace (s : State) (r : Reg) : (s.readUnset r).trace = s.trace := rfl

/-! ### `State.setHandle` -/

@[simp] theorem State.setHandle_cdp (s : State) (h : Option Handle) : (s.setHandle h).cdp = s.cdp := rfl
@[simp] theorem State.setHandle_cmd (s : State) (h : Option Handle) : (s.setHandle h).cmd = s.cmd := rfl
@[simp] theorem State.setHandle_calA (s : State) (h : Option Handle) : (s.setHandle h).calA = s.calA := rfl
@[simp] theorem State.setHandle_calB (s : State) (h : Option Handle) : (s.setHandle h).calB = s.calB := rfl
@[simp] theorem State.setHandle_rawIn (s : State) (h : Option Handle) : (s.setHandle h).rawIn = s.rawIn := rfl
@[simp] theorem State.setHandle_par (s : State) (h : Option Handle) : (s.setHandle h).par = s.par := rfl
@[simp] theorem State.setHandle_hostPar (s : State) (h : Option Handle) : (s.setHandle h).hostPar = s.hostPar := rfl
@[simp] theorem State.setHandle_driver (s : State) (h : Option Handle) : (s.setHandle h).driver = { s.driver with handle := h } := rfl
@[simp] theorem State.setHandle_unsetRead (s : State) (h : Option Handle) : (s.setHandle h).unsetRead = s.unsetRead := rfl
@[simp] theorem State.setHandle_env (s : State) (h : Option Handle) : (s.setHandle h).env = s.env := rfl
@[simp] theorem State.setHandle_draws (s : State) (h : Option Handle) : (s.setHandle h).draws = s.draws := rfl
@[simp] theorem State.setHandle_trace (s : State) (h : Option Handle) : (s.setHandle h).trace = s.trace := rfl

/-! ### `State.setAddr` -/

@[simp] theorem State.setAddr_cdp (s : State) (a : BitVec 7) : (s.setAddr a).cdp = s.cdp := rfl
@[simp] theorem State.setAddr_cmd (s : State) (a : BitVec 7) : (s.setAddr a).cmd = s.cmd := rfl
@[simp] theorem State.setAddr_calA (s : State) (a : BitVec 7) : (s.setAddr a).calA = s.calA := rfl
@[simp] theorem State.setAddr_calB (s : State) (a : BitVec 7) : (s.setAddr a).calB = s.calB := rfl
@[simp] theorem State.setAddr_rawIn (s : State) (a : BitVec 7) : (s.setAddr a).rawIn = s.rawIn := rfl
@[simp] theorem State.setAddr_par (s : State) (a : BitVec 7) : (s.setAddr a).par = s.par := rfl
@[simp] theorem State.setAddr_hostPar (s : State) (a : BitVec 7) : (s.setAddr a).hostPar = s.hostPar := rfl
@[simp] theorem State.setAddr_driver (s : State) (a : BitVec 7) : (s.setAddr a).driver = { s.driver with addr := some a } := rfl
@[simp] theorem State.setAddr_unsetRead (s : State) (a : BitVec 7) : (s.setAddr a).unsetRead = s.unsetRead := rfl
@[simp] theorem State.setAddr_env (s : State) (a : BitVec 7) : (s.setAddr a).env = s.env := rfl
@[simp] theorem State.setAddr_draws (s : State) (a : BitVec 7) : (s.setAddr a).draws = s.draws := rfl
@[simp] theorem State.setAddr_trace (s : State) (a : BitVec 7) : (s.setAddr a).trace = s.trace := rfl

/-! ### `State.notFound` -/

@[simp] theorem State.notFound_cdp (s : State) : (s.notFound).cdp = s.cdp := rfl
@[simp] theorem State.notFound_cmd (s : State) : (s.notFound).cmd = s.cmd := rfl
@[simp] theorem State.notFound_calA (s : State) : (s.notFound).calA = s.calA := rfl
@[simp] theorem State.notFound_calB (s : State) : (s.notFound).calB = s.calB := rfl
@[simp] theorem State.notFound_rawIn (s : State) : (s.notFound).rawIn = s.rawIn := rfl
@[simp] theorem State.notFound_par (s : State) : (s.notFound).par = s.par := rfl
@[simp] theorem State.notFound_hostPar (s : State) : (s.notFound).hostPar = s.hostPar := rfl
@[simp] theorem State.notFound_driver (s : State) : (s.notFound).driver = { s.driver with handle := none, task := .idle, result := some (.err .notFound) } := rfl
@[simp] theorem State.notFound_unsetRead (s : State) : (s.notFound).unsetRead = s.unsetRead := rfl
@[simp] theorem State.notFound_env (s : State) : (s.notFound).env = s.env := rfl
@[simp] theorem State.notFound_draws (s : State) : (s.notFound).draws = s.draws := rfl
@[simp] theorem State.notFound_trace (s : State) : (s.notFound).trace = s.trace := rfl

/-! ### `State.call` -/

@[simp] theorem State.call_cdp (s : State) (c : PrimCall) : (s.call c).cdp = s.cdp := rfl
@[simp] theorem State.call_cmd (s : State) (c : PrimCall) : (s.call c).cmd = s.cmd := rfl
@[simp] theorem State.call_calA (s : State) (c : PrimCall) : (s.call c).calA = s.calA := rfl
@[simp] theorem State.call_calB (s : State) (c : PrimCall) : (s.call c).calB = s.calB := rfl
@[simp] theorem State.call_rawIn (s : State) (c : PrimCall) : (s.call c).rawIn = s.rawIn := rfl
@[simp] theorem State.call_par (s : State) (c : PrimCall) : (s.call c).par = s.par := rfl
@[simp] theorem State.call_hostPar (s : State) (c : PrimCall) : (s.call c).hostPar = s.hostPar := rfl
@[simp] theorem State.call_driver (s : State) (c : PrimCall) : (s.call c).driver = s.driver := rfl
@[simp] theorem State.call_unsetRead (s : State) (c : PrimCall) : (s.call c).unsetRead = s.unsetRead := rfl
@[simp] theorem State.call_env (s : State) (c : PrimCall) : (s.call c).env = s.env := rfl
@[simp] theorem State.call_draws (s : State) (c : PrimCall) : (s.call c).draws = s.draws := rfl
@[simp] theorem State.call_trace (s : State) (c : PrimCall) : (s.call c).trace = c :: s.trace := rfl

/-! ### `State.issue` -/

@[simp] theorem State.issue_cdp (s : State) (op : Byte) : (s.issue op).cdp = s.cdp := rfl
@[simp] theorem State.issue_cmd (s : State) (op : Byte) : (s.issue op).cmd = some op := rfl
@[simp] theorem State.issue_calA (s : State) (op : Byte) : (s.issue op).calA = s.calA := rfl
@[simp] theorem State.issue_calB (s : State) (op : Byte) : (s.issue op).calB = s.calB := rfl
@[simp] theorem State.issue_rawIn (s : State) (op : Byte) : (s.issue op).rawIn = s.rawIn := rfl
@[simp] theorem State.issue_par (s : State) (op : Byte) : (s.issue op).par = s.par := rfl
@[simp] theorem State.issue_hostPar (s : State) (op : Byte) : (s.issue op).hostPar = s.hostPar := rfl
@[simp] theorem State.issue_driver (s : State) (op : Byte) : (s.issue op).driver = s.driver := rfl
@[simp] theorem State.issue_unsetRead (s : State) (op : Byte) : (s.issue op).unsetRead = s.unsetRead := rfl
@[simp] theorem State.issue_env (s : State) (op : Byte) : (s.issue op).env = s.env := rfl
@[simp] theorem State.issue_draws (s : State) (op : Byte) : (s.issue op).draws = s.draws := rfl
@[simp] theorem State.issue_trace (s : State) (op : Byte) : (s.issue op).trace = .cmd op :: s.trace := rfl

/-! ### `State.driveCalA` -/

@[simp] theorem State.driveCalA_cdp (s : State) (im : Image 26) : (s.driveCalA im).cdp = s.cdp := rfl
@[simp] theorem State.driveCalA_cmd (s : State) (im : Image 26) : (s.driveCalA im).cmd = s.cmd := rfl
@[simp] theorem State.driveCalA_calA (s : State) (im : Image 26) : (s.driveCalA im).calA = some im := rfl
@[simp] theorem State.driveCalA_calB (s : State) (im : Image 26) : (s.driveCalA im).calB = s.calB := rfl
@[simp] theorem State.driveCalA_rawIn (s : State) (im : Image 26) : (s.driveCalA im).rawIn = s.rawIn := rfl
@[simp] theorem State.driveCalA_par (s : State) (im : Image 26) : (s.driveCalA im).par = s.par := rfl
@[simp] theorem State.driveCalA_hostPar (s : State) (im : Image 26) : (s.driveCalA im).hostPar = s.hostPar := rfl
@[simp] theorem State.driveCalA_driver (s : State) (im : Image 26) : (s.driveCalA im).driver = s.driver := rfl
@[simp] theorem State.driveCalA_unsetRead (s : State) (im : Image 26) : (s.driveCalA im).unsetRead = s.unsetRead := rfl
@[simp] theorem State.driveCalA_env (s : State) (im : Image 26) : (s.driveCalA im).env = s.env := rfl
@[simp] theorem State.driveCalA_draws (s : State) (im : Image 26) : (s.driveCalA im).draws = s.draws := rfl
@[simp] theorem State.driveCalA_trace (s : State) (im : Image 26) : (s.driveCalA im).trace = s.trace := rfl

/-! ### `State.driveCalB` -/

@[simp] theorem State.driveCalB_cdp (s : State) (im : Image 7) : (s.driveCalB im).cdp = s.cdp := rfl
@[simp] theorem State.driveCalB_cmd (s : State) (im : Image 7) : (s.driveCalB im).cmd = s.cmd := rfl
@[simp] theorem State.driveCalB_calA (s : State) (im : Image 7) : (s.driveCalB im).calA = s.calA := rfl
@[simp] theorem State.driveCalB_calB (s : State) (im : Image 7) : (s.driveCalB im).calB = some im := rfl
@[simp] theorem State.driveCalB_rawIn (s : State) (im : Image 7) : (s.driveCalB im).rawIn = s.rawIn := rfl
@[simp] theorem State.driveCalB_par (s : State) (im : Image 7) : (s.driveCalB im).par = s.par := rfl
@[simp] theorem State.driveCalB_hostPar (s : State) (im : Image 7) : (s.driveCalB im).hostPar = s.hostPar := rfl
@[simp] theorem State.driveCalB_driver (s : State) (im : Image 7) : (s.driveCalB im).driver = s.driver := rfl
@[simp] theorem State.driveCalB_unsetRead (s : State) (im : Image 7) : (s.driveCalB im).unsetRead = s.unsetRead := rfl
@[simp] theorem State.driveCalB_env (s : State) (im : Image 7) : (s.driveCalB im).env = s.env := rfl
@[simp] theorem State.driveCalB_draws (s : State) (im : Image 7) : (s.driveCalB im).draws = s.draws := rfl
@[simp] theorem State.driveCalB_trace (s : State) (im : Image 7) : (s.driveCalB im).trace = s.trace := rfl

/-! ### `State.driveRaw` -/

@[simp] theorem State.driveRaw_cdp (s : State) (im : Image 8) : (s.driveRaw im).cdp = s.cdp := rfl
@[simp] theorem State.driveRaw_cmd (s : State) (im : Image 8) : (s.driveRaw im).cmd = s.cmd := rfl
@[simp] theorem State.driveRaw_calA (s : State) (im : Image 8) : (s.driveRaw im).calA = s.calA := rfl
@[simp] theorem State.driveRaw_calB (s : State) (im : Image 8) : (s.driveRaw im).calB = s.calB := rfl
@[simp] theorem State.driveRaw_rawIn (s : State) (im : Image 8) : (s.driveRaw im).rawIn = some im := rfl
@[simp] theorem State.driveRaw_par (s : State) (im : Image 8) : (s.driveRaw im).par = s.par := rfl
@[simp] theorem State.driveRaw_hostPar (s : State) (im : Image 8) : (s.driveRaw im).hostPar = s.hostPar := rfl
@[simp] theorem State.driveRaw_driver (s : State) (im : Image 8) : (s.driveRaw im).driver = s.driver := rfl
@[simp] theorem State.driveRaw_unsetRead (s : State) (im : Image 8) : (s.driveRaw im).unsetRead = s.unsetRead := rfl
@[simp] theorem State.driveRaw_env (s : State) (im : Image 8) : (s.driveRaw im).env = s.env := rfl
@[simp] theorem State.driveRaw_draws (s : State) (im : Image 8) : (s.driveRaw im).draws = s.draws := rfl
@[simp] theorem State.driveRaw_trace (s : State) (im : Image 8) : (s.driveRaw im).trace = s.trace := rfl

/-! ### `State.afterTurn` -/

@[simp] theorem State.afterTurn_cdp (s : State) : s.afterTurn.cdp = s.cdp := by
  unfold State.afterTurn; split <;> rfl
@[simp] theorem State.afterTurn_cmd (s : State) : s.afterTurn.cmd = s.cmd := by
  unfold State.afterTurn; split <;> rfl
@[simp] theorem State.afterTurn_calA (s : State) : s.afterTurn.calA = s.calA := by
  unfold State.afterTurn; split <;> rfl
@[simp] theorem State.afterTurn_calB (s : State) : s.afterTurn.calB = s.calB := by
  unfold State.afterTurn; split <;> rfl
@[simp] theorem State.afterTurn_rawIn (s : State) : s.afterTurn.rawIn = s.rawIn := by
  unfold State.afterTurn; split <;> rfl
@[simp] theorem State.afterTurn_par (s : State) : s.afterTurn.par = s.par := by
  unfold State.afterTurn; split <;> rfl
@[simp] theorem State.afterTurn_hostPar (s : State) : s.afterTurn.hostPar = s.hostPar := by
  unfold State.afterTurn; split <;> rfl
@[simp] theorem State.afterTurn_driver (s : State) : s.afterTurn.driver = s.driver := by
  unfold State.afterTurn; split <;> rfl
@[simp] theorem State.afterTurn_unsetRead (s : State) : s.afterTurn.unsetRead = s.unsetRead := by
  unfold State.afterTurn; split <;> rfl
@[simp] theorem State.afterTurn_trace (s : State) : s.afterTurn.trace = s.trace := by
  unfold State.afterTurn; split <;> rfl

end Sys2Proof.Machine
end

