-- ==== Sys2Proof/Laws/Driver.lean ====
section
/-! SUPPORT. What the host driver's operations can do (46_host_protocol.md): they never write a CDP register or a
parameter, and the end of a transaction writes the driver's own variables only. -/

namespace Sys2Proof.Machine

/-- `t` differs from `s` in the driver's own variables only. -/
def OnlyDriver (s t : State) : Prop := t = { s with driver := t.driver }

theorem OnlyDriver.bringup (s : State) (c : Candidate) : OnlyDriver s (s.bringup c) := by
  unfold State.bringup; split <;> rfl

theorem OnlyDriver.nextCandidate (s : State) (c : Candidate) : OnlyDriver s (s.nextCandidate c) := by
  cases c
  · exact OnlyDriver.bringup s .secondary
  · rfl

theorem OnlyDriver.afterProbe (s : State) (c : Candidate) (left : Nat) (r : TxnResult) :
    OnlyDriver s (s.afterProbe c left r) := by
  unfold State.afterProbe
  split
  · rfl
  · split
    · exact OnlyDriver.nextCandidate s c
    · rfl

theorem OnlyDriver.afterChipId (s : State) (c : Candidate) (left : Nat) (r : TxnResult) :
    OnlyDriver s (s.afterChipId c left r) := by
  unfold State.afterChipId
  split
  · rfl
  · split <;> rfl

theorem OnlyDriver.afterStatus (s : State) (r : TxnResult) : OnlyDriver s (s.afterStatus r) := by
  unfold State.afterStatus
  split
  · split <;> rfl
  · rfl

/-- The end of a transaction writes the driver's own variables only. -/
theorem OnlyDriver.resume (s : State) (r : TxnResult) (site : Site) : OnlyDriver s (s.resume r site) := by
  cases site with
  | probe c left => exact OnlyDriver.afterProbe s c left r
  | chipId c left => exact OnlyDriver.afterChipId s c left r
  | status => exact OnlyDriver.afterStatus s r
  | calA | calB | softReset | ctrlHum | ctrlMeas | config | data | userRead | userWrite => cases r <;> rfl

theorem OnlyDriver.startInitialize (bus : Bool) (s : State) : OnlyDriver s (startInitialize bus s) := by
  unfold Machine.startInitialize
  split
  · split
    · rfl
    · exact OnlyDriver.bringup s .primary
  · rfl

theorem OnlyDriver.startRead (out : Bool) (s : State) : OnlyDriver s (startRead out s) := by
  unfold Machine.startRead
  split
  · split <;> rfl
  · rfl

theorem OnlyDriver.startRelease (s : State) : OnlyDriver s (startRelease s) := by
  unfold Machine.startRelease
  split <;> rfl

/-- What no driver step writes: the CDP's registers, the parameters, the turns to come and the count of free values; and how
it can write the record of `UnsetRead`. -/
structure DriverFrame (s t : State) : Prop where
  cdp : t.cdp = s.cdp
  par : t.par = s.par
  hostPar : t.hostPar = s.hostPar
  env : t.env = s.env
  draws : t.draws = s.draws
  /-- `UnsetRead` is recorded where the driver reads a register that holds ⊥, and only there (R267). -/
  unsetRead : t.unsetRead = s.unsetRead ∨ ∃ r, s.cdp.read r = none ∧ t.unsetRead = some (s.unsetRead.getD r)

theorem OnlyDriver.frame {s t : State} (h : OnlyDriver s t) : DriverFrame s t := by
  unfold OnlyDriver at h
  rw [h]
  exact ⟨rfl, rfl, rfl, rfl, rfl, .inl rfl⟩

theorem DriverFrame.trans {s t u : State} (h : DriverFrame s t) (h' : DriverFrame t u) : DriverFrame s u := by
  refine ⟨h'.cdp.trans h.cdp, h'.par.trans h.par, h'.hostPar.trans h.hostPar, h'.env.trans h.env, h'.draws.trans h.draws, ?_⟩
  rcases h.unsetRead with e | ⟨r, hr, e⟩ <;> rcases h'.unsetRead with e' | ⟨r', hr', e'⟩
  · exact .inl (e'.trans e)
  · exact .inr ⟨r', h.cdp ▸ hr', e ▸ e'⟩
  · exact .inr ⟨r, hr, e'.trans e⟩
  · exact .inr ⟨r, hr, by rw [e', e]; rfl⟩

theorem DriverFrame.call (s : State) (c : PrimCall) : DriverFrame s (s.call c) := ⟨rfl, rfl, rfl, rfl, rfl, .inl rfl⟩

theorem DriverFrame.txnStep (ok : Bool) (bytes : List Byte) (site : Site) (s : State) (stage : TxnStage) :
    DriverFrame s (txnStep ok bytes site s stage) := by
  cases stage with
  | acquire =>
    simp only [Machine.txnStep]
    split
    · exact (OnlyDriver.resume s _ site).frame
    · split
      · exact ⟨rfl, rfl, rfl, rfl, rfl, .inl rfl⟩
      · exact (DriverFrame.call s _).trans (OnlyDriver.resume _ _ site).frame
  | transfer => exact ⟨rfl, rfl, rfl, rfl, rfl, .inl rfl⟩
  | release r => exact (DriverFrame.call s .release).trans (OnlyDriver.resume _ r site).frame

theorem DriverFrame.finish (s : State) (r : HostResult) : DriverFrame s (s.finish r) := ⟨rfl, rfl, rfl, rfl, rfl, .inl rfl⟩

theorem DriverFrame.readUnset {s : State} {r : Reg} (h : s.cdp.read r = none) : DriverFrame s (s.readUnset r) :=
  ⟨rfl, rfl, rfl, rfl, rfl, .inr ⟨r, h, rfl⟩⟩

theorem DriverFrame.startCall (s : State) (c : Call) : DriverFrame s (startCall s c) := by
  cases c with
  | init bus => exact (OnlyDriver.startInitialize bus s).frame
  | read out => exact (OnlyDriver.startRead out s).frame
  | release => exact (OnlyDriver.startRelease s).frame
  | readReg r =>
    simp only [Machine.startCall, readRegister]
    split
    · exact DriverFrame.finish ..
    · exact DriverFrame.readUnset ‹_›
  | isAvailable | busRead | busWrite | cmd | driveCalA | driveCalB | driveRaw => exact ⟨rfl, rfl, rfl, rfl, rfl, .inl rfl⟩

/-- The copy of the four results either ends in a measurement or finds one of them ⊥. -/
theorem returnMeasurement_cases (s : State) :
    (∃ c f h p, s.cdp.tempC = some c ∧ s.cdp.tempF = some f ∧ s.cdp.humPct = some h ∧ s.cdp.pressHpa = some p ∧
      returnMeasurement s = s.finish (.measurement c f h p)) ∨
    ∃ r, s.cdp.read r = none ∧ returnMeasurement s = s.readUnset r := by
  unfold returnMeasurement
  split
  · exact .inl ⟨_, _, _, _, ‹_›, ‹_›, ‹_›, ‹_›, rfl⟩
  · exact .inr ⟨.tempC, by simp [Cdp.read, *], rfl⟩
  · exact .inr ⟨.tempF, by simp [Cdp.read, *], rfl⟩
  · exact .inr ⟨.humPct, by simp [Cdp.read, *], rfl⟩
  · exact .inr ⟨.pressHpa, by simp [Cdp.read, *], rfl⟩

/-- The end of a read cycle finishes the operation, with a result or with a register found to hold ⊥. -/
theorem collect_cases (s : State) :
    (∃ r, collect s = s.finish r) ∨ ∃ r, s.cdp.read r = none ∧ collect s = s.readUnset r := by
  unfold collect
  split
  · exact (returnMeasurement_cases s).imp (fun ⟨_, _, _, _, _, _, _, _, h⟩ => ⟨_, h⟩) id
  · split
    · exact .inl ⟨_, rfl⟩
    · split <;> exact .inl ⟨_, rfl⟩

theorem DriverFrame.attachStep (handle : Handle) (c : Candidate) (s : State) : DriverFrame s (attachStep handle c s) := by
  unfold Machine.attachStep
  dsimp only
  split <;> exact ⟨rfl, rfl, rfl, rfl, rfl, .inl rfl⟩

/-- A driver step writes no CDP register (R230: the host is separate from the CDP) and no parameter. -/
theorem DriverFrame.driverStep (call : Option Call) (ok : Bool) (handle : Handle) (bytes : List Byte) (s : State) :
    DriverFrame s (driverStep call ok handle bytes s) := by
  unfold Machine.driverStep
  split
  · split
    · exact ⟨rfl, rfl, rfl, rfl, rfl, .inl rfl⟩
    · exact DriverFrame.startCall ..
  · exact DriverFrame.txnStep ..
  · exact ⟨rfl, rfl, rfl, rfl, rfl, .inl rfl⟩
  · exact DriverFrame.attachStep ..
  · exact ⟨rfl, rfl, rfl, rfl, rfl, .inl rfl⟩
  · exact DriverFrame.trans (t := (s.call (.detach s.driver.handle)).setHandle none) ⟨rfl, rfl, rfl, rfl, rfl, .inl rfl⟩
      (OnlyDriver.nextCandidate _ _).frame
  · exact ⟨rfl, rfl, rfl, rfl, rfl, .inl rfl⟩
  · exact ⟨rfl, rfl, rfl, rfl, rfl, .inl rfl⟩
  · exact ⟨rfl, rfl, rfl, rfl, rfl, .inl rfl⟩
  · exact ⟨rfl, rfl, rfl, rfl, rfl, .inl rfl⟩
  · exact ⟨rfl, rfl, rfl, rfl, rfl, .inl rfl⟩
  · exact ⟨rfl, rfl, rfl, rfl, rfl, .inl rfl⟩
  · exact ⟨rfl, rfl, rfl, rfl, rfl, .inl rfl⟩
  · exact ⟨rfl, rfl, rfl, rfl, rfl, .inl rfl⟩
  · rcases collect_cases s with ⟨r, h⟩ | ⟨r, hr, h⟩ <;> rw [h]
    · exact DriverFrame.finish ..
    · exact DriverFrame.readUnset hr

end Sys2Proof.Machine
end

