-- ==== Sys2Proof/Laws/Step.lean ====
section
/-! SUPPORT. Everything a step, and each command's meaning, can do. -/

namespace Sys2Proof.Machine

/-- The three kinds of step: the CDP executes a command (R58), the platform resets it (R290), the driver acts (R248). -/
theorem step_cases {s t : State} (h : step s = .next t) :
    (∃ op, s.cmd = some op ∧ exec (decodeByte op) { s with cmd := none } = .next t) ∨
    (s.cmd = none ∧ s.nextTurn = .reset ∧ t = s.afterTurn.resetCdp) ∨
    (s.cmd = none ∧ ∃ call ok handle bytes, s.nextTurn = .act call ok handle bytes ∧
      t = driverStep call ok handle bytes s.afterTurn) := by
  unfold step State.fetch at h
  cases hc : s.cmd with
  | some op => rw [hc] at h; exact .inl ⟨op, rfl, h⟩
  | none =>
    rw [hc] at h
    cases h
    unfold turnStep
    refine .inr ?_
    cases ht : s.nextTurn with
    | reset => exact .inl ⟨rfl, rfl, rfl⟩
    | act call ok handle bytes => exact .inr ⟨rfl, call, ok, handle, bytes, rfl, rfl⟩

/-- A step in which the driver has its listed turn. -/
theorem step_turn {s : State} {call : Option Call} {ok : Bool} {handle : Handle} {bytes : List Byte} {rest : List Turn}
    (hc : s.cmd = none) (he : s.env = .act call ok handle bytes :: rest) :
    step s = .next (driverStep call ok handle bytes { s with env := rest }) := by
  unfold step State.fetch turnStep State.nextTurn State.afterTurn
  simp only [hc, he]

/-- A run goes on from the state that its first step gives. -/
theorem run_next {n : Nat} {s t : State} (h : step s = .next t) : core.run (n + 1) s = core.run n t := by
  have hs : core.step s = .next t := h
  change Host.Core.run core (n + 1) s = _
  simp only [Host.Core.run, hs]

/-- A transaction whose lock is not got: one turn, then the driver resumes with TIMEOUT (R236, R237). -/
theorem run_txn_refused {n : Nat} {s : State} {site : Site} {call : Option Call} {handle : Handle} {bytes : List Byte}
    {rest : List Turn} (hc : s.cmd = none) (ht : s.driver.task = .txn site .acquire)
    (hb : site.op.badArgument s.driver.handle = false) (he : s.env = .act call false handle bytes :: rest) :
    core.run (n + 1) s =
      core.run n (State.resume { s with env := rest, trace := .tryAcquire s.hostPar.lockTimeoutMs false :: s.trace }
        (.err .timeout) site) := by
  refine run_next ?_
  rw [step_turn hc he]
  simp [driverStep, ht, txnStep, hb, State.call]

/-- A transaction whose lock is got: three turns, then the driver resumes with what the transfer gave (R235 to R237). -/
theorem run_txn {n : Nat} {s : State} {site : Site} {c1 c2 c3 : Option Call} {ok o3 : Bool} {h1 h2 h3 : Handle}
    {b1 bytes b3 : List Byte} {rest : List Turn} (hc : s.cmd = none) (ht : s.driver.task = .txn site .acquire)
    (hb : site.op.badArgument s.driver.handle = false)
    (he : s.env = .act c1 true h1 b1 :: .act c2 ok h2 bytes :: .act c3 o3 h3 b3 :: rest) :
    core.run (n + 3) s =
      core.run n (State.resume
        { s with
          env := rest
          driver := { s.driver with task := .txn site (.release (site.op.outcome ok bytes)) }
          trace := [.release, site.op.primCall s.hostPar s.driver.handle, .tryAcquire s.hostPar.lockTimeoutMs true] ++ s.trace }
        (site.op.outcome ok bytes) site) := by
  have e1 : step s = .next { s with
      env := .act c2 ok h2 bytes :: .act c3 o3 h3 b3 :: rest
      driver := { s.driver with task := .txn site .transfer }
      trace := .tryAcquire s.hostPar.lockTimeoutMs true :: s.trace } := by
    rw [step_turn hc he]
    simp [driverStep, ht, txnStep, hb, State.call, State.goto]
  rw [run_next e1, run_next (step_turn (by exact hc) rfl), run_next (step_turn (by exact hc) rfl)]
  rfl

/-- What CALLOAD does (R100, R102). -/
theorem execCalload_cases {s t : State} (h : execCalload s = .next t) :
    (s.cdp.status.avail = true ∧ t = s.setCdp (s.cdp.raiseErr errNone)) ∨
    (s.cdp.status.avail = false ∧ t = (s.sampled 2).setCdp (s.cdp.loadCal (decodeCal s.seenCalA s.seenCalB))) := by
  unfold execCalload at h
  split at h <;> cases h <;> simp_all

/-- What MEASURE does when it answers a next state (R121, R122, R124); the last case contradicts R22. -/
theorem execMeasure_cases {s t : State} (h : execMeasure s = .next t) :
    (s.cdp.status.avail = false ∧ t = s.setCdp (s.cdp.failMeasure errInvalidState)) ∨
    (s.cdp.status.avail = true ∧ isSentinel s.par (rawP s.seenRaw) (rawT s.seenRaw) (rawH s.seenRaw) = true ∧
      t = (s.sampled 1).setCdp ((s.cdp.latch s.seenRaw).failMeasure errInvalidResponse)) ∨
    (s.cdp.status.avail = true ∧ isSentinel s.par (rawP s.seenRaw) (rawT s.seenRaw) (rawH s.seenRaw) = false ∧
      ∃ k res, s.cdp.cal = some k ∧
        measureResults s.par k (rawP s.seenRaw) (rawT s.seenRaw) (rawH s.seenRaw) = some res ∧
        t = (s.sampled 1).setCdp ((s.cdp.latch s.seenRaw).publish res)) ∨
    (s.cdp.status.avail = true ∧ isSentinel s.par (rawP s.seenRaw) (rawT s.seenRaw) (rawH s.seenRaw) = false ∧
      s.cdp.cal = none ∧ t = (s.sampled 1).setCdp (s.cdp.failMeasure errInvalidState)) := by
  unfold execMeasure at h
  cases ha : s.cdp.status.avail with
  | false => simp only [ha, Bool.false_eq_true, if_false] at h; cases h; exact .inl ⟨rfl, rfl⟩
  | true =>
    simp only [ha, if_true] at h
    unfold measureSampled at h
    simp only [State.sampled_par, State.sampled_cdp] at h
    refine .inr ?_
    cases hs : isSentinel s.par (rawP s.seenRaw) (rawT s.seenRaw) (rawH s.seenRaw) with
    | true => simp only [hs, if_true] at h; cases h; exact .inl ⟨rfl, rfl, rfl⟩
    | false =>
      simp only [hs, Bool.false_eq_true, if_false] at h
      refine .inr ?_
      split at h
      · cases h; exact .inr ⟨rfl, rfl, ‹_›, rfl⟩
      · rename_i k hk
        split at h
        · cases h
        · rename_i res hr
          cases h
          exact .inl ⟨rfl, rfl, k, res, hk, hr, rfl⟩

/-- A command writes the CDP's registers and the count of free values, nothing else (R28, R30). -/
theorem exec_frame {i : Instr} {s t : State} (h : exec i s = .next t) :
    t = { s with cdp := t.cdp, draws := t.draws } := by
  cases i with
  | nop => cases h; rfl
  | calload => rcases execCalload_cases h with ⟨-, rfl⟩ | ⟨-, rfl⟩ <;> rfl
  | measure => rcases execMeasure_cases h with ⟨-, rfl⟩ | ⟨-, -, rfl⟩ | ⟨-, -, k, res, -, -, rfl⟩ | ⟨-, -, -, rfl⟩ <;> rfl
  | inval => cases h; rfl
  | reserved op => cases h; rfl

end Sys2Proof.Machine
end

