-- ==== Sys2Proof/Laws/Evaluators.lean ====
section
/-! SUPPORT. The integer operators on two's-complement words, what the evaluators answer on the hardware
(`OVF_MODE = wrap`), and MEASURE in each of its cases. -/

namespace Sys2Proof.Machine

/-! ### The operators on words: each is the word operation (R12, R13) -/

theorem toInt_eq_wrap {w : Nat} (hw : 0 < w) (b : BitVec w) : b.toInt = wrap w b.toNat := by
  rw [wrap_eq_toInt hw]; simp

theorem opAdd_toInt {w : Nat} (hw : 0 < w) (a b : BitVec w) : opAdd .wrap w a.toInt b.toInt = some (a + b).toInt := by
  simp [opAdd, wrap_eq_toInt hw, BitVec.ofInt_add]

theorem opSub_toInt {w : Nat} (hw : 0 < w) (a b : BitVec w) : opSub .wrap w a.toInt b.toInt = some (a - b).toInt := by
  simp [opSub, wrap_eq_toInt hw, sub_eq_add_neg, BitVec.ofInt_add, BitVec.ofInt_neg]

theorem opMul_toInt {w : Nat} (hw : 0 < w) (a b : BitVec w) : opMul .wrap w a.toInt b.toInt = some (a * b).toInt := by
  simp [opMul, wrap_eq_toInt hw, BitVec.ofInt_mul]

theorem opShl_toInt {w : Nat} (hw : 0 < w) (a : BitVec w) (n : Nat) : opShl .wrap w a.toInt n = some (a <<< n).toInt := by
  simp only [opShl, narrow_wrap, wrap_eq_toInt hw, BitVec.ofInt_mul, BitVec.ofInt_toInt]
  rw [BitVec.shiftLeft_eq_mul_twoPow]
  congr 3
  apply BitVec.eq_of_toNat_eq
  simp only [BitVec.toNat_ofInt, BitVec.toNat_twoPow]
  exact_mod_cast Int.toNat_natCast (2 ^ n % 2 ^ w)

theorem opDiv_toInt {w : Nat} (hw : 0 < w) (a b : BitVec w) : opDiv .wrap w a.toInt b.toInt = some (a.sdiv b).toInt := by
  simp [opDiv, wrap_eq_toInt hw, BitVec.toInt_sdiv, BitVec.toInt_ofInt]

theorem asr_toInt {w : Nat} (a : BitVec w) (n : Nat) : asr a.toInt n = (a.sshiftRight n).toInt := by
  simp [asr, BitVec.toInt_sshiftRight, Int.shiftRight_eq_div_pow]

/-- A right shift of a value of the width by `n` is a value of the width less `n` bits. -/
theorem asr_inWidth {w n : Nat} (hn : n < w) {v : Int} (h : InWidth w v) : InWidth (w - n) (asr v n) := by
  have hp : 0 < ((2 ^ n : Nat) : Int) := by exact_mod_cast Nat.two_pow_pos n
  have hk : ((2 ^ (w - 1) : Nat) : Int) = ((2 ^ (w - n - 1) : Nat) : Int) * ((2 ^ n : Nat) : Int) := by
    rw [← Nat.cast_mul, ← pow_add]; congr 2; omega
  unfold InWidth at h ⊢
  unfold asr
  rw [hk] at h
  exact ⟨by rw [Int.le_ediv_iff_mul_le hp]; linarith [h.1], by rw [Int.ediv_lt_iff_lt_mul hp]; exact h.2⟩

/-! ### On the hardware every evaluator answers a value -/

theorem compT_wrap_some (adcT : Int) (k : Calib) : ∃ tf t, compT .wrap adcT k = some (tf, t) := ⟨_, _, rfl⟩

theorem pressureOffset_wrap_some (tf : Int) (k : Calib) : ∃ off, pressureOffset .wrap tf k = some off := ⟨_, rfl⟩

theorem pressureDenominator_wrap_some (tf : Int) (k : Calib) : ∃ den, pressureDenominator .wrap tf k = some den := ⟨_, rfl⟩

theorem pressureQuotient_wrap_some (adcP den off : Int) (k : Calib) :
    ∃ p, pressureQuotient .wrap adcP den off k = some p := ⟨_, rfl⟩

/-- CompP from its parts (R170, R171). -/
theorem compP_eq {m : OvfMode} {adcP tf off den : Int} {k : Calib} (ho : pressureOffset m tf k = some off)
    (hd : pressureDenominator m tf k = some den) :
    compP m adcP tf k =
      if den = 0 then some (0, true) else (pressureQuotient m adcP den off k).map fun p => (p, false) := by
  unfold compP
  rw [ho, hd]
  simp only [Option.bind_eq_bind, Option.bind_some]
  split
  · rfl
  · cases pressureQuotient m adcP den off k <;> rfl

theorem compP_wrap_some (adcP tf : Int) (k : Calib) : ∃ p z, compP .wrap adcP tf k = some (p, z) := by
  obtain ⟨off, ho⟩ := pressureOffset_wrap_some tf k
  obtain ⟨den, hd⟩ := pressureDenominator_wrap_some tf k
  obtain ⟨p, hp⟩ := pressureQuotient_wrap_some adcP den off k
  rw [compP_eq ho hd, hp]
  split
  · exact ⟨_, _, rfl⟩
  · exact ⟨_, _, rfl⟩

theorem compH_wrap_some (adcH tf : Int) (k : Calib) : ∃ h, compH .wrap adcH tf k = some h := ⟨_, rfl⟩

/-- The results from the evaluators' values (R121). -/
theorem measureResults_eq {par : Params} {k : Calib} {adcP adcT : BitVec 20} {adcH : BitVec 16} {tf t p h : Int} {z : Bool}
    (hT : compT par.ovfMode adcT.toNat k = some (tf, t)) (hP : compP par.ovfMode adcP.toNat tf k = some (p, z))
    (hH : compH par.ovfMode adcH.toNat tf k = some h) :
    measureResults par k adcP adcT adcH = some (Results.ofValues par.resultFmt tf t p h z) := by
  unfold measureResults
  rw [hT]
  simp only [Option.bind_eq_bind, Option.bind_some]
  rw [hP]
  simp only [Option.bind_some]
  rw [hH]
  rfl

/-- Results come from the evaluators' values (R121). -/
theorem measureResults_some {par : Params} {k : Calib} {adcP adcT : BitVec 20} {adcH : BitVec 16} {r : Results}
    (h : measureResults par k adcP adcT adcH = some r) :
    ∃ tf t p z hh, compT par.ovfMode adcT.toNat k = some (tf, t) ∧ compP par.ovfMode adcP.toNat tf k = some (p, z) ∧
      compH par.ovfMode adcH.toNat tf k = some hh ∧ r = Results.ofValues par.resultFmt tf t p hh z := by
  unfold measureResults at h
  obtain ⟨⟨tf, t⟩, hT, h⟩ := Option.bind_eq_some_iff.mp h
  obtain ⟨⟨p, z⟩, hP, h⟩ := Option.bind_eq_some_iff.mp h
  obtain ⟨hh, hH, h⟩ := Option.bind_eq_some_iff.mp h
  cases h
  exact ⟨tf, t, p, z, hh, hT, hP, hH, rfl⟩

/-! ### MEASURE in each of its cases -/

theorem isSentinel_iff (par : Params) (p t : BitVec 20) (h : BitVec 16) :
    isSentinel par p t h = true ↔ t = 0x80000 ∨ p = 0x80000 ∨ (par.checkHSentinel = true ∧ h = 0x8000) := by
  simp [isSentinel, or_assoc]

theorem execMeasure_unavailable {s : State} (h : s.cdp.status.avail = false) :
    execMeasure s = .next (s.setCdp (s.cdp.failMeasure errInvalidState)) := by
  unfold execMeasure
  rw [h]
  rfl

theorem execMeasure_sentinel {s : State} (h : s.cdp.status.avail = true)
    (hs : isSentinel s.par (rawP s.seenRaw) (rawT s.seenRaw) (rawH s.seenRaw) = true) :
    execMeasure s = .next ((s.sampled 1).setCdp ((s.cdp.latch s.seenRaw).failMeasure errInvalidResponse)) := by
  unfold execMeasure measureSampled
  simp [h, hs]

theorem execMeasure_results {s : State} {k : Calib} (h : s.cdp.status.avail = true)
    (hs : isSentinel s.par (rawP s.seenRaw) (rawT s.seenRaw) (rawH s.seenRaw) = false) (hk : s.cdp.cal = some k) :
    execMeasure s =
      match measureResults s.par k (rawP s.seenRaw) (rawT s.seenRaw) (rawH s.seenRaw) with
      | none => .fault .overflow
      | some res => .next ((s.sampled 1).setCdp ((s.cdp.latch s.seenRaw).publish res)) := by
  unfold execMeasure measureSampled
  cases hr : measureResults s.par k (rawP s.seenRaw) (rawT s.seenRaw) (rawH s.seenRaw) <;> simp [h, hs, hk, hr]

theorem execMeasure_publish {s : State} {k : Calib} {res : Results} (h : s.cdp.status.avail = true)
    (hs : isSentinel s.par (rawP s.seenRaw) (rawT s.seenRaw) (rawH s.seenRaw) = false) (hk : s.cdp.cal = some k)
    (hr : measureResults s.par k (rawP s.seenRaw) (rawT s.seenRaw) (rawH s.seenRaw) = some res) :
    execMeasure s = .next ((s.sampled 1).setCdp ((s.cdp.latch s.seenRaw).publish res)) := by
  rw [execMeasure_results h hs hk, hr]

theorem execMeasure_noCal {s : State} (h : s.cdp.status.avail = true)
    (hs : isSentinel s.par (rawP s.seenRaw) (rawT s.seenRaw) (rawH s.seenRaw) = false) (hk : s.cdp.cal = none) :
    execMeasure s = .next ((s.sampled 1).setCdp (s.cdp.failMeasure errInvalidState)) := by
  unfold execMeasure measureSampled
  simp [h, hs, hk]

/-- A command neither reads nor writes the driver, the turns to come and the trace (R28, R30). -/
theorem exec_other_driver {i : Instr} {s t : State} (d : Driver) (e : List Turn) (tr : List PrimCall)
    (h : exec i s = .next t) :
    exec i { s with driver := d, env := e, trace := tr } = .next { t with driver := d, env := e, trace := tr } := by
  cases i with
  | nop => cases h; rfl
  | calload =>
    change execCalload _ = _
    unfold execCalload
    rcases execCalload_cases h with ⟨ha, rfl⟩ | ⟨ha, rfl⟩
    · exact (if_pos ha).trans rfl
    · exact (if_neg (by simp [ha])).trans rfl
  | measure =>
    rcases execMeasure_cases h with ⟨ha, rfl⟩ | ⟨ha, hs, rfl⟩ | ⟨ha, hs, k, res, hk, hr, rfl⟩ |
      ⟨ha, hs, hk, rfl⟩
    · exact execMeasure_unavailable (s := { s with driver := d, env := e, trace := tr }) ha
    · exact execMeasure_sentinel (s := { s with driver := d, env := e, trace := tr }) ha hs
    · exact execMeasure_publish (s := { s with driver := d, env := e, trace := tr }) ha hs hk hr
    · exact execMeasure_noCal (s := { s with driver := d, env := e, trace := tr }) ha hs hk
  | inval => cases h; rfl
  | reserved op => cases h; rfl

end Sys2Proof.Machine
end

