-- ==== Sys2Proof/Laws/Float.lean ====
section
/-! SUPPORT. What the parts of the rounding of R16 do: `roundHalfEven` gives the nearest integer, `floorLog2` the binary
exponent, and `roundMag` is built from the two. -/

namespace Sys2Proof.Machine

/-- The rounded integer is at most a half away, and even where it is exactly a half away. -/
theorem roundHalfEven_nearest {n d : Nat} (hd : 0 < d) :
    2 * ((roundHalfEven n d : Int) * d - n).natAbs ≤ d ∧
      (2 * ((roundHalfEven n d : Int) * d - n).natAbs = d → roundHalfEven n d % 2 = 0) := by
  have hn : (n : Int) = (n / d : Nat) * (d : Int) + (n % d : Nat) := by exact_mod_cast (Nat.div_add_mod' n d).symm
  have hm : n % d < d := Nat.mod_lt n hd
  unfold roundHalfEven
  split
  · rw [show ((n / d + 1 : Nat) : Int) * d - n = (d : Int) - (n % d : Nat) by push_cast at hn ⊢; linarith]
    omega
  · rw [show ((n / d : Nat) : Int) * d - n = -((n % d : Nat) : Int) by push_cast at hn ⊢; linarith]
    omega

/-- `2 ^ k ≤ n / d < 2 ^ (k + 1)` for `k = floorLog2 n d`. -/
theorem floorLog2_bounds {n d : Nat} (hn : 0 < n) (hd : 0 < d) :
    d * 2 ^ (floorLog2 n d).toNat ≤ n * 2 ^ (-floorLog2 n d).toNat ∧
      n * 2 ^ (-floorLog2 n d).toNat < 2 * (d * 2 ^ (floorLog2 n d).toNat) := by
  have n1 : 2 ^ Nat.log2 n ≤ n := Nat.log2_self_le (by omega)
  have n2 : n < 2 ^ (Nat.log2 n + 1) := Nat.lt_log2_self
  have d1 : 2 ^ Nat.log2 d ≤ d := Nat.log2_self_le (by omega)
  have d2 : d < 2 ^ (Nat.log2 d + 1) := Nat.lt_log2_self
  unfold floorLog2
  dsimp only
  generalize Nat.log2 n = a at *
  generalize Nat.log2 d = b at *
  have up : n * 2 ^ (-((a : Int) - b)).toNat < 2 * (d * 2 ^ ((a : Int) - b).toNat) := by
    have e : a + 1 + (-((a : Int) - b)).toNat = 1 + (b + ((a : Int) - b).toNat) := by omega
    calc n * 2 ^ (-((a : Int) - b)).toNat < 2 ^ (a + 1) * 2 ^ (-((a : Int) - b)).toNat :=
          Nat.mul_lt_mul_of_pos_right n2 (by positivity)
      _ = 2 ^ 1 * (2 ^ b * 2 ^ ((a : Int) - b).toNat) := by rw [← pow_add, e, pow_add, pow_add]
      _ ≤ 2 * (d * 2 ^ ((a : Int) - b).toNat) := by gcongr; norm_num
  split
  · rename_i h
    exact ⟨h, up⟩
  · rename_i h
    have low : d * 2 ^ ((a : Int) - b).toNat < 2 * (n * 2 ^ (-((a : Int) - b)).toNat) := by
      have e : b + 1 + ((a : Int) - b).toNat = 1 + (a + (-((a : Int) - b)).toNat) := by omega
      calc d * 2 ^ ((a : Int) - b).toNat < 2 ^ (b + 1) * 2 ^ ((a : Int) - b).toNat :=
            Nat.mul_lt_mul_of_pos_right d2 (by positivity)
        _ = 2 ^ 1 * (2 ^ a * 2 ^ (-((a : Int) - b)).toNat) := by rw [← pow_add, e, pow_add, pow_add]
        _ ≤ 2 * (n * 2 ^ (-((a : Int) - b)).toNat) := by gcongr; norm_num
    rcases le_or_gt ((a : Int) - b) 0 with hk | hk
    · have e1 : ((a : Int) - b - 1).toNat = 0 := by omega
      have e2 : ((a : Int) - b).toNat = 0 := by omega
      have e3 : (-((a : Int) - b - 1)).toNat = (-((a : Int) - b)).toNat + 1 := by omega
      rw [e1, e3, pow_succ, ← mul_assoc]
      rw [e2] at h low up
      omega
    · have e1 : (-((a : Int) - b - 1)).toNat = 0 := by omega
      have e2 : (-((a : Int) - b)).toNat = 0 := by omega
      have e3 : ((a : Int) - b).toNat = ((a : Int) - b - 1).toNat + 1 := by omega
      rw [e1]
      rw [e2, e3, pow_succ, ← mul_assoc] at h low up
      omega

/-- A zero is rounded to zero. -/
@[simp] theorem roundMag_zero (f : FloatFmt) (d : Nat) (e : Int) : roundMag f 0 d e = 0 := rfl

end Sys2Proof.Machine
end

