-- ==== Sys2Proof/Laws/PerInstr.lean ====
section
/-! SUPPORT. Statements made of each command as syntax, one lemma per constructor. -/

namespace Sys2Proof.Laws

/-- The encoding's length: a command is one byte, whatever follows it (R70). -/
def OneByte.Statement (i : Instr) : Prop :=
  (encode i).length = 1 ∧ ∀ rest, ∃ j, decode (encode i ++ rest) = .ok (j, rest)

theorem OneByte.nop : OneByte.Statement .nop := ⟨rfl, fun _ => ⟨_, rfl⟩⟩

theorem OneByte.calload : OneByte.Statement .calload := ⟨rfl, fun _ => ⟨_, rfl⟩⟩

theorem OneByte.measure : OneByte.Statement .measure := ⟨rfl, fun _ => ⟨_, rfl⟩⟩

theorem OneByte.inval : OneByte.Statement .inval := ⟨rfl, fun _ => ⟨_, rfl⟩⟩

theorem OneByte.reserved (op : Byte) : OneByte.Statement (.reserved op) := ⟨rfl, fun _ => ⟨_, rfl⟩⟩

end Sys2Proof.Laws
end

