-- ==== Sys2Proof/Tests/Slice0.lean ====
section
/-! SUPPORT. Tests: well-formedness, decoding, the spec's own vectors (95_test_vectors.md), and one witness for each
obligation that has hypotheses: a concrete state and operands that meet all of them. -/

open Sys2Proof.Machine Sys2Proof.Certificates

namespace Sys2Proof.Tests

/-! ### The states of the tests -/

/-- The `CAL_A` image of V-CAL-1. -/
def calA1 : Image 26 :=
  #v[0x70, 0x6B, 0x43, 0x67, 0x18, 0xFC, 0x7D, 0x8E, 0x43, 0xD6, 0xD0, 0x0B, 0x27, 0x0B, 0x8C, 0x00, 0xF9, 0xFF, 0x8C, 0x3C,
     0xF8, 0xC6, 0x70, 0x17, 0x00, 0x4B]

/-- The `CAL_B` image of V-CAL-1. -/
def calB1 : Image 7 := #v[0x6A, 0x01, 0x00, 0x13, 0x29, 0x03, 0x1E]

/-- The fields of V-CAL-1, as the vector lists them. -/
def k1 : Calib :=
  { t1 := 27504, t2 := 26435, t3 := -1000, p1 := 36477, p2 := -10685, p3 := 3024, p4 := 2855, p5 := 140, p6 := -7
    p7 := 15500, p8 := -14600, p9 := 6000, h1 := 75, h2 := 362, h3 := 0, h4 := 313, h5 := 50, h6 := 30 }

/-- The `RAW_IN` image of V-RAW-1. -/
def raw1 : Image 8 := #v[0x65, 0x5A, 0xC0, 0x7E, 0xED, 0x00, 0x6D, 0x08]

/-- The `RAW_IN` image of V-RAW-4: `ADC_T` is the sentinel. -/
def raw4 : Image 8 := #v[0x65, 0x5A, 0xC0, 0x80, 0x00, 0x0F, 0x6D, 0x08]

/-- The reset state with the ports of PROG-1 driven. -/
def ready : State := { State.reset with calA := some calA1, calB := some calB1, rawIn := some raw1 }

/-- `ready` once CALLOAD has loaded V-CAL-1. -/
def loaded : State :=
  { ready with cdp := { Cdp.reset with cal := some k1, status := { Cdp.reset.status with avail := true } } }

/-- The registers at the end of PROG-1 (95_test_vectors.md section 3, and V-S-1 for the floats). -/
def prog1End : Cdp :=
  { cal := some k1, adcP := some 415148, adcT := some 519888, adcH := some 27912
    tFine := some 128422, tOut := some 2508, pOut := some 25767233, hOut := some 44406
    tempC := some (.binary64 0x4039147AE147AE14), tempF := some (.binary64 0x405349374BC6A7F0)
    pressHpa := some (.binary64 0x408F7442A3D70A3D), humPct := some (.binary64 0x4045AEC000000000)
    status := { avail := true, resValid := true, pZero := false, err := 0 } }

/-- The state at the end of PROG-1. -/
def measured : State := { ready with cdp := prog1End }

/-- `ready` with the driver at a point of its procedure, and turns to come. -/
def driving (task : Task) (handle : Option Handle) (env : List Turn) : State :=
  { ready with driver := { handle := handle, addr := none, task := task, result := none }, env := env }

/-- `loaded` with an idle driver that holds the handle 1, and turns to come. -/
def session (env : List Turn) : State :=
  { loaded with driver := { handle := some 1, addr := none, task := .idle, result := none }, env := env }

/-- The next state of an outcome. -/
def after : Host.Outcome State Fault Refusal → Option State
  | .next t => some t
  | .fault _ => none
  | .refused _ => none

theorem exists_next {o : Host.Outcome State Fault Refusal} (h : (after o).isSome = true) : ∃ t, o = .next t := by
  cases o with
  | next t => exact ⟨t, rfl⟩
  | fault e => cases h
  | refused e => cases h

/-- The registers after one command, issued as an opcode-table word. -/
def registersAfter (op : Nat) (s : State) : Option Cdp := (after (step (s.withFetchWord 8 op))).map (·.cdp)

/-- `STATUS` after one command. -/
def statusAfter (op : Nat) (s : State) : Option (BitVec 8) := (registersAfter op s).map (·.status.word)

/-! ### Well-formedness, encoding and decoding -/

theorem test_wf_refuses_assigned_codes :
    ∀ op ∈ [0x00, 0x01, 0x02, 0x03], (Instr.reserved op).wf = false := by decide

theorem test_wf_admits_reserved_codes : (Instr.reserved 0x04).wf = true ∧ (Instr.reserved 0xFF).wf = true := by decide

/-- R71, bit by bit: `NOP` is 0000 0000. -/
theorem test_decode_nop : decode [0b00000000] = .ok (.nop, []) := rfl

/-- R71, bit by bit: `CALLOAD` is 0000 0001. -/
theorem test_decode_calload : decode [0b00000001, 0xAA] = .ok (.calload, [0xAA]) := rfl

/-- R71, bit by bit: `MEASURE` is 0000 0010. -/
theorem test_decode_measure : decode [0b00000010, 0x03] = .ok (.measure, [0x03]) := rfl

/-- R71, bit by bit: `INVAL` is 0000 0011. -/
theorem test_decode_inval : decode [0b00000011] = .ok (.inval, []) := rfl

/-- R72: the first and the last reserved code. -/
theorem test_decode_reserved :
    decode [0b00000100] = .ok (.reserved 0x04, []) ∧ decode [0b11111111] = .ok (.reserved 0xFF, []) := ⟨rfl, rfl⟩

theorem test_decode_nothing : decode [] = .error .noByte := rfl

theorem test_table_words :
    decodeTableWord 8 0x02 = some .measure ∧ decodeTableWord 8 0x7F = some (.reserved 0x7F) := by decide

/-- PROG-3's commands (95_test_vectors.md section 3) are encoded `03 02 01 02 7F 01 02`. -/
theorem test_prog3_encoding :
    programCode [commandLine .inval, commandLine .measure, .driveCalA calA1, commandLine .calload, commandLine .measure,
      .cmd 0x7F, .driveCalA calA1, commandLine .calload, commandLine .measure] =
    [0x03, 0x02, 0x01, 0x02, 0x7F, 0x01, 0x02] := by decide

/-- V-CAL-1. -/
theorem test_cal_fields : decodeCal calA1 calB1 = k1 := by decide

/-- V-CAL-2, V-CAL-3: the nibble-packed fields. -/
theorem test_cal_nibbles :
    (decodeCal calA1 #v[0, 0, 0, 0x80, 0, 0, 0]).h4.toInt = -2048 ∧
    (decodeCal calA1 #v[0, 0, 0, 0x00, 0xF7, 0x7F, 0]).h4.toInt = 7 ∧
    (decodeCal calA1 #v[0, 0, 0, 0x00, 0xF7, 0x7F, 0]).h5.toInt = 2047 := by decide

/-- V-RAW-2: the low nibbles are ignored; PROG-4: `.raw_adc`. -/
theorem test_raw_fields :
    rawP #v[0x65, 0x5A, 0xCF, 0x7E, 0xED, 0x0F, 0x6D, 0x08] = 415148 ∧
    rawT #v[0x65, 0x5A, 0xCF, 0x7E, 0xED, 0x0F, 0x6D, 0x08] = 519888 ∧ rawH raw1 = 27912 ∧
    rawAdcImage 0x655AC 0x7EED0 0xFFFF = #v[0x65, 0x5A, 0xC0, 0x7E, 0xED, 0x00, 0xFF, 0xFF] := by decide

/-! ### The commands, one step each -/

/-- V-NOP-1. -/
theorem test_nop_keeps_status :
    statusAfter 0x00 { measured with cdp := { prog1End with status := { avail := true, resValid := false, pZero := false, err := 2 } } } =
      some 0x11 := by decide

/-- R267: `T_OUT` read before any MEASURE, straight from reset; it gives no value and the machine goes on. -/
theorem test_read_unset_is_recorded :
    (after (step { State.reset with env := [asked (.readReg .tOut)] })).map (fun t => (t.unsetRead, t.driver.result, t.cdp)) =
      some (some .tOut, some (.unset .tOut), Cdp.reset) := by decide

/-- R242, R290: a reset of the platform between MEASURE and the copy; the earlier record stays. -/
theorem test_copy_after_reset :
    (let t := collect { measured.resetCdp with unsetRead := some .tOut }
     (t.unsetRead, t.driver.task, t.driver.result)) = (some .tOut, .idle, some (.unset .tempC)) := by decide

/-- PROG-1, command 2. -/
theorem test_calload_loads : registersAfter 0x01 ready = some loaded.cdp ∧ statusAfter 0x01 ready = some 0x01 := by decide

/-- V-CAL-7: a loaded calibration is kept. -/
theorem test_calload_while_available :
    (registersAfter 0x01 { measured with calA := some (Vector.replicate 26 0) }).bind (·.cal) = some k1 := by decide

/-- PROG-1, command 3. -/
theorem test_measure_publishes :
    (registersAfter 0x02 loaded).bind (·.tFine) = some 128422 ∧ (registersAfter 0x02 loaded).bind (·.tOut) = some 2508 ∧
    (registersAfter 0x02 loaded).bind (·.pOut) = some 25767233 ∧ (registersAfter 0x02 loaded).bind (·.hOut) = some 44406 ∧
    (registersAfter 0x02 loaded).bind (·.tempF) = some (.binary64 0x405349374BC6A7F0) ∧
    (registersAfter 0x02 loaded).bind (·.pressHpa) = some (.binary64 0x408F7442A3D70A3D) ∧
    statusAfter 0x02 loaded = some 0x03 := by decide

/-- PROG-2, command 2: the sentinel leaves the results. -/
theorem test_measure_on_sentinel :
    registersAfter 0x02 { measured with rawIn := some raw4 } =
      some { prog1End with adcT := some 0x80000, status := { avail := true, resValid := false, pZero := false, err := 2 } } := by
  decide

/-- V-INV-1, PROG-3, command 1. -/
theorem test_inval_releases :
    registersAfter 0x03 measured =
      some { prog1End with
        cal := none, tFine := none, status := { avail := false, resValid := false, pZero := false, err := 0 } } := by decide

/-- V-RSV-1, V-RSV-2. -/
theorem test_reserved_sets_err : statusAfter 0x04 measured = some 0x1B ∧ statusAfter 0xFF ready = some 0x18 := by decide

/-- R105: a session's release detaches, issues INVAL and leaves the CDP unavailable. -/
theorem test_release :
    (after (core.run 5 (session (asked .release :: List.replicate 3 (granted 0 []))))).map
      (fun t => (t.cdp.status.word, t.driver.handle, t.trace)) = some (0x00, none, [.cmd 0x03, .detach (some 1)]) := by decide

/-! ### The evaluators and the scaling stage -/

/-- V-T-1, V-T-2, V-T-3, V-T-5, V-T-6, and V-T-5 under `OVF_MODE = fault`. -/
theorem test_compT :
    compT .fault 519888 k1 = some (128422, 2508) ∧ compT .wrap 0 k1 = some (-721301, -14088) ∧
    compT .wrap 0xFFFFF k1 = some (960246, 18755) ∧
    compT .wrap 0xFFFFF { k1 with t1 := 0, t2 := -32768, t3 := 0 } = some (16, 0) ∧
    compT .wrap 0xFFFFF { k1 with t1 := 0, t2 := 0, t3 := 1 } = some (-1, 0) ∧
    compT .fault 0xFFFFF { k1 with t1 := 0, t2 := -32768, t3 := 0 } = none := by decide

/-- V-P-1, V-P-3, V-P-5, V-P-6. -/
theorem test_compP :
    compP .fault 415148 128422 k1 = some (25767233, false) ∧ compP .wrap 0xFFFFF 128422 k1 = some (-1697504, false) ∧
    compP .wrap 415148 128422 { k1 with p1 := 0 } = some (0, true) ∧
    compP .wrap 0 1179646
      { k1 with p1 := 1, p2 := -32768, p3 := -32768, p4 := 0, p5 := 0, p6 := 0, p7 := 0, p8 := 0, p9 := 0 } =
        some (-1663003853494, false) := by decide

/-- V-H-1 to V-H-5. -/
theorem test_compH :
    compH .fault 27912 128422 k1 = some 44406 ∧ compH .wrap 0x8000 128422 k1 = some 72045 ∧
    humidityUnclamped .wrap 0 128422 k1 = some (-486364973) ∧ compH .wrap 0 128422 k1 = some 0 ∧
    compH .wrap 0xFFFF 128422 k1 = some 102400 ∧ compH .wrap 27912 128422 { k1 with h2 := 0 } = some 0 := by decide

/-- V-S-3 in both formats, V-S-4 in binary32, `K(1.8)`. -/
theorem test_scale :
    scaleTempC .binary64 (-14088) = .binary64 0xC0619C28F5C28F5C ∧
    scaleTempF .binary64 (.binary64 0xC0619C28F5C28F5C) = .binary64 0xC06BB2B020C49BA6 ∧
    scalePress .binary64 (-1697504) = .binary64 0xC05093C28F5C28F6 ∧ scaleHum .binary64 0 = .binary64 0 ∧
    scaleTempC .binary32 18755 = .binary32 0x433B8CCD ∧ scaleTempF .binary32 (.binary32 0x433B8CCD) = .binary32 0x43B8CB85 ∧
    scalePress .binary32 44339071 = .binary32 0x44D87FD7 ∧ scaleHum .binary32 102400 = .binary32 0x42C80000 ∧
    narrowFlt .binary64 (f64Const 18 10) = .binary64 0x3FFCCCCCCCCCCCCD := by decide

/-! ### Witnesses: each meets all the hypotheses of the obligation it names -/

theorem witness_OtherCodesAreReserved :
    ∀ op ∈ ([0x04, 0xFF] : List Byte), op ≠ 0x00 ∧ op ≠ 0x01 ∧ op ≠ 0x02 ∧ op ≠ 0x03 := by decide

theorem witness_DecodeEncodeAgree : (Instr.reserved 0x04).wf = true ∧ decode [0x03, 0x01] = .ok (.inval, [0x01]) :=
  ⟨rfl, rfl⟩

theorem witness_CalibrationImagesRoundTrip : calA1[24] = 0 := rfl

theorem witness_RawImagesRoundTrip : lowNibble raw1[2] = 0 ∧ lowNibble raw1[5] = 0 := by decide

theorem witness_CalloadDecodesOrKeeps : ready.cdp.status.avail = false ∧ loaded.cdp.status.avail = true := ⟨rfl, rfl⟩

theorem witness_MeasureUnavailable : ready.cdp.status.avail = false := rfl

/-- The three disjuncts of the sentinel condition. -/
theorem witness_MeasureOnSentinel :
    loaded.cdp.status.avail = true ∧ rawT raw4 = 0x80000 ∧ rawP #v[0x80, 0x00, 0x0F, 0x7E, 0xED, 0x00, 0x6D, 0x08] = 0x80000 ∧
    rawH #v[0x65, 0x5A, 0xC0, 0x7E, 0xED, 0x00, 0x80, 0x00] = 0x8000 ∧
    SentinelIn loaded.par (State.seenRaw { loaded with rawIn := some raw4 }) ∧
    SentinelIn { checkHSentinel := true } #v[0x65, 0x5A, 0xC0, 0x7E, 0xED, 0x00, 0x80, 0x00] :=
  ⟨rfl, by decide, by decide, by decide, .inl (by decide), .inr (.inr (by decide))⟩

theorem loaded_no_sentinel : ¬SentinelIn loaded.par loaded.seenRaw := by
  rintro (h | h | ⟨h, -⟩)
  · exact absurd h (by decide)
  · exact absurd h (by decide)
  · cases h

/-- Both overflow modes: V-T-1, V-P-1 and V-H-1 overflow at no site. -/
theorem witness_MeasureComputes :
    loaded.cdp.status.avail = true ∧ loaded.cdp.cal = some k1 ∧ ¬SentinelIn loaded.par loaded.seenRaw ∧
    loaded.par.ovfMode = .wrap ∧
    ∀ m, compT m (rawT raw1).toNat k1 = some (128422, 2508) ∧ compP m (rawP raw1).toNat 128422 k1 = some (25767233, false) ∧
      compH m (rawH raw1).toNat 128422 k1 = some 44406 :=
  ⟨rfl, rfl, loaded_no_sentinel, rfl, fun m => by cases m <;> decide⟩

/-- V-T-5 under `OVF_MODE = fault`: both sides hold. -/
theorem witness_OverflowOnlyInFaultMode :
    measureResults { ovfMode := .fault } { k1 with t1 := 0, t2 := -32768, t3 := 0 } 415148 0xFFFFF 27912 = none := by decide

theorem witness_HardwareCommandsComplete :
    loaded.par.ovfMode = .wrap ∧ ready.par.ovfMode = .wrap := ⟨rfl, rfl⟩

/-- The least and the greatest value of the range. -/
theorem witness_FineRange : FineRange (-1179648) ∧ FineRange 1179646 :=
  ⟨⟨by decide, by decide⟩, ⟨by decide, by decide⟩⟩

/-- Both branches of CompP, in the range. -/
theorem witness_PressureClosedForm :
    FineRange 128422 ∧ pressureDenominator .wrap 128422 { k1 with p1 := 0 } = some 0 ∧
    pressureDenominator .wrap 128422 k1 = some 597560748 := ⟨⟨by decide, by decide⟩, by decide, by decide⟩

theorem witness_HumidityClosedForm : FineRange 128422 := ⟨by decide, by decide⟩

theorem witness_TemperatureRanges :
    compT .fault (519888 : BitVec 20).toNat k1 = some (128422, 2508) ∧
    (compT .wrap (0xFFFFF : BitVec 20).toNat k1).isSome = true := by decide

theorem witness_TemperatureRounding : FineRange (-52) := ⟨by decide, by decide⟩

theorem witness_PressureZeroGuard :
    FineRange 128422 ∧ ({ k1 with p1 := 0 } : Calib).p1 = 0 ∧
    compP .wrap (415148 : BitVec 20).toNat 128422 { k1 with p1 := 0 } = some (0, true) ∧
    compP .wrap (415148 : BitVec 20).toNat 128422 k1 = some (25767233, false) :=
  ⟨⟨by decide, by decide⟩, rfl, by decide, by decide⟩

/-- The numerators and divisors next to the excluded pair. -/
theorem witness_DivisionTruncates :
    (∀ nd ∈ ([(-2 ^ 63, 1), (-2 ^ 63 + 1, -1), (2 ^ 63 - 1, -2 ^ 30), (0, 1)] : List (Int × Int)),
      -2 ^ 63 ≤ nd.1 ∧ nd.1 < 2 ^ 63 ∧ nd.2 ≠ 0 ∧ ¬(nd.1 = -2 ^ 63 ∧ nd.2 = -1)) ∧
    pressureDenominator .fault 128422 k1 = some 597560748 := by decide

theorem witness_PressureOffsetNeverOverflows : FineRange (-1179648) := ⟨by decide, by decide⟩

/-- Both clamps (V-H-3, V-H-4), `H2 = 0` (V-H-5) and the `x` line. -/
theorem witness_HumidityClamped :
    compH .wrap 0 128422 k1 = some 0 ∧ compH .wrap 0xFFFF 128422 k1 = some 102400 ∧ ({ k1 with h2 := 0 } : Calib).h2 = 0 ∧
    (humidityX .fault 27912 51622 k1).isSome = true := by decide

/-- Results under `OVF_MODE = fault`; inputs in the range for which CompP and CompH answer, and for which they do not. -/
theorem witness_FaultModeAgreesWithHardware :
    (∃ r, measureResults { ovfMode := .fault } k1 415148 519888 27912 = some r) ∧ FineRange 128422 ∧
    compP .fault (415148 : BitVec 20).toNat 128422 k1 = some (25767233, false) ∧
    compH .fault (27912 : BitVec 16).toNat 128422 k1 = some 44406 ∧
    compP .fault (0 : BitVec 20).toNat 1179646 { k1 with p1 := 0xFFFF, p2 := 32767, p3 := 32767 } = none ∧
    compH .fault (0xFFFF : BitVec 16).toNat 128422 { k1 with h4 := -2048 } = none :=
  ⟨Option.isSome_iff_exists.mp (by decide), ⟨by decide, by decide⟩, by decide, by decide, by decide, by decide⟩

theorem witness_ResultRegistersHoldValues :
    compT .wrap (519888 : BitVec 20).toNat k1 = some (128422, 2508) ∧
    compP .wrap (415148 : BitVec 20).toNat 128422 k1 = some (25767233, false) ∧
    compH .wrap (27912 : BitVec 16).toNat 128422 k1 = some 44406 := by decide

theorem witness_RoundingIsNearestEven :
    roundMag fmt64 1 10 1074 < fmt64.infinity ∧ roundMag fmt32 1 10 149 < fmt32.infinity ∧ roundMag fmt32 3 2 0 < fmt32.infinity := by
  decide

/-- The ends of the ranges of TempCCorrectlyRounded, PressHpaCorrectlyRounded, HumPctExact and FloatResultsFinite. -/
theorem witness_ScaleRanges :
    (-23040 : Int) ≤ -23040 ∧ (23040 : Int) ≤ 23040 ∧ (-2 ^ 63 : Int) < 2 ^ 63 ∧ (-2 ^ 63 : Int) ≤ 2 ^ 63 - 1 ∧
    (-2 ^ 53 : Int).natAbs ≤ 2 ^ 53 ∧ (0 : Int) ≤ 102400 := by decide

theorem witness_StepRunsDecodedCommand :
    (ready.withFetchWord 8 0x7F).cmd = some 0x7F ∧ decode [0x7F] = .ok (.reserved 0x7F, []) := ⟨by decide, rfl⟩

theorem witness_ResetLeaves : (session [.reset]).cmd = none ∧ (session [.reset]).env = [.reset] := ⟨rfl, rfl⟩

/-- A register that holds a value, and one that holds ⊥; a step with a fault recorded, and one that records it. -/
theorem witness_RegisterReads :
    Quiet (session [asked (.readReg .t2)]) ∧ (session [asked (.readReg .t2)]).cdp.read .t2 = some (.int 26435) ∧
    Quiet (session [asked (.readReg .tOut)]) ∧ (session [asked (.readReg .tOut)]).cdp.read .tOut = none ∧
    (∃ t, step { session [.reset] with unsetRead := some .tOut } = .next t) ∧
    ∃ t, step (session [asked (.readReg .tOut)]) = .next t ∧ t.unsetRead = some .tOut :=
  ⟨⟨rfl, rfl⟩, rfl, ⟨rfl, rfl⟩, rfl, ⟨_, rfl⟩, ⟨_, rfl, rfl⟩⟩

/-- Every command answers a next state: the hypothesis of CommandFrames, PortsSampledAsTheyStand and
ErrIsWrittenByEveryCommandButNop. -/
theorem witness_CommandsAnswer :
    ∀ i ∈ [Instr.nop, .calload, .measure, .inval, .reserved 0x04], (∃ t, exec i loaded = .next t) ∧ ∃ t, exec i ready = .next t := by
  have h : ∀ i ∈ [Instr.nop, .calload, .measure, .inval, .reserved 0x04],
      (after (exec i loaded)).isSome = true ∧ (after (exec i ready)).isSome = true := by decide
  exact fun i hi => ⟨exists_next (h i hi).1, exists_next (h i hi).2⟩

/-- Driven ports, and an idle host asked for a line of a program. -/
theorem witness_PortsSampledAsTheyStand :
    ready.calA = some calA1 ∧ ready.calB = some calB1 ∧ ready.rawIn = some raw1 ∧
    ∀ line ∈ [Call.driveCalA calA1, .driveCalB calB1, .driveRaw raw4, .cmd 0x7F],
      Quiet (session [asked line]) ∧ (session [asked line]).env = asked line :: [] :=
  ⟨rfl, rfl, rfl, fun _ _ => ⟨⟨rfl, rfl⟩, rfl⟩⟩

/-- The three error codes. -/
theorem witness_ErrorsArePrecise :
    (∃ t, exec .measure ready = .next t ∧ t.cdp.status.err = 1) ∧
    (∃ t, exec .measure { loaded with rawIn := some raw4 } = .next t ∧ t.cdp.status.err = 2) ∧
    ∃ t, exec (.reserved 0xFF) ready = .next t ∧ t.cdp.status.err = 3 := ⟨⟨_, rfl, rfl⟩, ⟨_, rfl, rfl⟩, ⟨_, rfl, rfl⟩⟩

/-- A step with no command waiting that is no reset. -/
theorem witness_ErrIsWrittenByEveryCommandButNop :
    (session [asked .isAvailable]).cmd = none ∧ (session [asked .isAvailable]).nextTurn ≠ .reset ∧
    ∃ t, step (session [asked .isAvailable]) = .next t := ⟨rfl, by decide, ⟨_, rfl⟩⟩

/-- Both ways in which the calibration changes. -/
theorem witness_CalibrationImmutableWhileAvailable :
    loaded.cdp.status.avail = true ∧
    (∃ t, step { loaded with cmd := some 0x03 } = .next t ∧ t.cdp.cal ≠ loaded.cdp.cal) ∧
    ∃ t, step (session [.reset]) = .next t ∧ t.cdp.cal ≠ loaded.cdp.cal :=
  ⟨rfl, ⟨_, rfl, by decide⟩, ⟨_, rfl, by decide⟩⟩

theorem witness_MeasureDependsOnInputsOnly :
    measured.par = loaded.par ∧ measured.cdp.cal = loaded.cdp.cal ∧ measured.cdp.status.avail = loaded.cdp.status.avail ∧
    measured.rawIn = some raw1 ∧ loaded.rawIn = some raw1 ∧ ∃ t, exec .measure measured = .next t :=
  ⟨rfl, rfl, rfl, rfl, rfl, exists_next (by decide)⟩

/-- A state with a valid result, which meets the invariant, and a step from it. -/
theorem witness_StepKeepsCdpInvariant :
    measured.cdp.Inv measured.par ∧ ∃ t, step { measured with cmd := some 0x02 } = .next t := by
  refine ⟨⟨rfl, fun _ => ?_, fun h => absurd h (by decide), by unfold Cdp.errKnown; decide, ?_⟩, exists_next (by decide)⟩
  · obtain ⟨r, hr⟩ := Option.isSome_iff_exists.mp
      (show (measureResults measured.par k1 415148 519888 27912).isSome = true by decide)
    refine ⟨rfl, k1, 415148, 519888, 27912, r, rfl, rfl, rfl, rfl, by decide, hr, ?_⟩
    have h : ∀ {α : Type} (f : Results → α) (v : α),
        (measureResults measured.par k1 415148 519888 27912).map f = some v → some v = some (f r) := fun f v hv => by
      rw [hr] at hv; exact hv.symm
    refine ⟨h (·.tFine) _ ?_, h (·.tOut) _ ?_, h (·.pOut) _ ?_, h (·.hOut) _ ?_, h (·.tempC) _ ?_, h (·.tempF) _ ?_,
      h (·.pressHpa) _ ?_, h (·.humPct) _ ?_, Option.some.inj (h (·.pZero) false ?_)⟩ <;> decide
  · intro v hv
    cases hv
    decide

/-- Inside a hold of the lock, before and after the transaction. -/
theorem witness_StepKeepsLockDiscipline :
    (∃ t, State.lockDisciplined { driving (.txn (.userRead 0xFA 8) .transfer) (some 1) [denied] with
        trace := [.tryAcquire 100 true] } ∧
      step (driving (.txn (.userRead 0xFA 8) .transfer) (some 1) [denied]) = .next t) ∧
    State.lockDisciplined { driving (.txn (.userRead 0xFA 8) (.release (.err .timeout))) (some 1) [denied] with
      trace := [.writeRead (some 1) 0xFA 8 60, .tryAcquire 100 true] } := ⟨⟨_, rfl, rfl⟩, rfl⟩

theorem witness_StepKeepsBringupUnavailable :
    let s := driving (.txn (.probe .primary 2) .acquire) none [denied]
    s.bringupUnavailable ∧ s.driver.task.bringingUp = true ∧ ∃ t, step s = .next t :=
  ⟨fun _ => ⟨rfl, rfl⟩, rfl, ⟨_, rfl⟩⟩

theorem witness_ParametersAreFixed : ∃ t, step (ready.withFetchWord 8 0x01) = .next t := exists_next (by decide)

theorem witness_HostWritesNoRegister :
    (session [asked (.driveRaw raw4)]).cmd = none ∧ (session [asked (.driveRaw raw4)]).nextTurn ≠ .reset ∧
    ∃ t, step (session [asked (.driveRaw raw4)]) = .next t := ⟨rfl, by decide, ⟨_, rfl⟩⟩

/-- A null handle, an available CDP, a first probe, and no attempt allowed. -/
theorem witness_InitializeStarts :
    (Quiet (session [asked (.init false)]) ∧ (session [asked (.init false)]).env = [asked (.init false)]) ∧
    (Quiet (session [asked (.init true)]) ∧ (session [asked (.init true)]).cdp.status.avail = true) ∧
    (Quiet (driving .idle none [asked (.init true)]) ∧
      (driving .idle none [asked (.init true)]).cdp.status.avail = false ∧ ready.hostPar.probeAttempts = 2 + 1) ∧
    ({ driving .idle none [asked (.init true)] with hostPar := { probeAttempts := 0 } } : State).hostPar.probeAttempts = 0 :=
  ⟨⟨⟨rfl, rfl⟩, rfl⟩, ⟨⟨rfl, rfl⟩, rfl⟩, ⟨⟨rfl, rfl⟩, rfl, rfl⟩, rfl⟩

/-- Each clause's hypotheses: tries that fail by the lock, by a refused transfer, by a wrong identity and by too few bytes, at a
probe, an identity read, a calibration read and a configuration write, with attempts left and without. -/
theorem witness_FailedAttemptsAreRetriedThenGivenUp :
    ready.cmd = none ∧ ready.hostPar.probeAttempts = 2 + 1 ∧
    (∀ call bad, FailedTry ready call bad [denied] [.tryAcquire 100 false]) ∧
    (∀ call bad ok bytes, bad ok bytes →
      FailedTry ready call bad [granted 0 [], .act none ok 0 bytes, granted 0 []] [.release, call, .tryAcquire 100 true]) ∧
    ([Config.chipIdValue + 1].head? ≠ some Config.chipIdValue) ∧ ([] : List Byte).head? ≠ some Config.chipIdValue ∧
    (List.replicate 25 (0 : Byte)).length < 26 ∧
    ∀ site ∈ [Site.probe .primary 2, .probe .primary 0, .probe .secondary 0, .chipId .primary 1, .chipId .secondary 0,
        .calA .primary, .calB .secondary calA1, .softReset .primary calA1 calB1, .config .secondary calA1 calB1], ∀ env,
      (driving (.txn site .acquire) (some 1) env).driver.task = .txn site .acquire ∧
      (driving (.txn site .acquire) (some 1) env).driver.handle = some 1 ∧
      (driving (.txn site .acquire) (some 1) env).env = env :=
  ⟨rfl, rfl, fun _ _ => .inl ⟨rfl, rfl⟩, fun _ _ _ _ h => .inr ⟨_, _, h, rfl, rfl⟩, by simp, by simp, by decide,
    fun _ _ _ => ⟨rfl, rfl, rfl⟩⟩

/-- No handle, nothing to read, no lock, and a transfer. -/
theorem witness_BusReadFollowsTheLock :
    Quiet (session [asked (.busRead 0xFA 0), denied]) ∧ (driving .idle none [asked (.busRead 0xFA 8), denied]).driver.handle = none ∧
    denied ≠ .reset ∧ (session []).driver.handle.isSome ∧ (8 : Nat) ≠ 0 ∧
    (session [asked (.busRead 0xFA 8), granted 0 [], .act none true 0 [1, 2, 3, 4, 5, 6, 7, 8], denied]).env =
      asked (.busRead 0xFA 8) :: granted 0 [] :: .act none true 0 [1, 2, 3, 4, 5, 6, 7, 8] :: denied :: [] :=
  ⟨⟨rfl, rfl⟩, rfl, by decide, rfl, by decide, rfl⟩

theorem witness_BusWriteFollowsTheLock :
    Quiet (session [asked (.busWrite 0xF4 0x27), denied]) ∧
    (driving .idle none [asked (.busWrite 0xF4 0x27), denied]).driver.handle = none ∧ (session []).driver.handle.isSome ∧
    (session [asked (.busWrite 0xF4 0x27), granted 0 [], .act none false 0 [], denied]).env =
      asked (.busWrite 0xF4 0x27) :: granted 0 [] :: .act none false 0 [] :: denied :: [] := ⟨⟨rfl, rfl⟩, rfl, rfl, rfl⟩

/-- From the lock of a probe, and from the soft-reset write. -/
theorem witness_BringupConfiguresThenLoads :
    (let s := driving (.txn (.probe .secondary 0) .acquire) none
      ([granted 1 [], granted 1 [], granted 1 [], granted 1 [], granted 1 [], granted 1 [Config.chipIdValue],
        granted 1 [], granted 1 [], granted 1 calA1.toList, granted 1 [], granted 1 [], granted 1 calB1.toList, granted 1 []] ++
          (List.replicate 15 (granted 1 []) ++ []))
     s.cmd = none ∧ s.cdp.status.avail = false ∧ s.driver.task = .txn (.probe .secondary 0) .acquire ∧
       s.hostPar.chipIdAttempts = 2 + 1) ∧
    (let s := driving (.txn (.softReset .secondary calA1 calB1) .acquire) (some 1) (List.replicate 15 (granted 1 []) ++ [])
     s.cmd = none ∧ s.cdp.status.avail = false ∧ s.driver.task = .txn (.softReset .secondary calA1 calB1) .acquire ∧
       s.driver.handle = some 1) := ⟨⟨rfl, rfl, rfl, rfl⟩, rfl, rfl, rfl, rfl⟩

/-- The last probe of the last candidate, and the release of its handle. -/
theorem witness_FailedInitializeIsNotFound :
    (let s := driving (.txn (.probe .secondary 0) .acquire) none []
     s.bringupUnavailable ∧ s.driver.task.bringingUp = true ∧
       (driverStep none false 0 [] s).driver.task = .idle) ∧
    (let s := driving (.abandon .secondary) (some 1) []
     s.bringupUnavailable ∧ s.driver.task.bringingUp = true ∧
       (driverStep none false 0 [] s).driver.task = .idle) :=
  ⟨⟨fun _ => ⟨rfl, rfl⟩, rfl, rfl⟩, ⟨fun _ => ⟨rfl, rfl⟩, rfl, rfl⟩⟩

/-- The turns of a read cycle with the status byte `sb` that gets the eight bytes of `r`. -/
def readTurns (sb : Byte) (r : Image 8) : List Turn :=
  [asked (.read true), granted 1 [], granted 1 [sb], granted 1 []] ++
    (if decide (sb &&& Config.statusBusyMask ≠ 0) then [granted 1 []] else []) ++
    [granted 1 [], granted 1 r.toList, granted 1 [], granted 1 [], granted 1 []] ++ []

/-- A read that gives a measurement, and one that meets the sentinel; 0 shows no conversion in progress, 0xFF shows one under
every mask but 0. And a read while unavailable. -/
theorem witness_ReadCycleReturns :
    (∀ sb r, r = raw1 ∨ r = raw4 →
      Quiet (session (readTurns sb r)) ∧ (session (readTurns sb r)).driver.handle = some 1 ∧
      (session (readTurns sb r)).cdp.status.avail = true ∧
      ∃ t, exec .measure { session (readTurns sb r) with rawIn := some r } = .next t) ∧
    (0 : Byte) &&& Config.statusBusyMask = 0 ∧ (Config.statusBusyMask ≠ 0 → (0xFF : Byte) &&& Config.statusBusyMask ≠ 0) ∧
    Quiet (driving .idle none [asked (.read true)]) ∧ (driving .idle none [asked (.read true)]).cdp.status.avail = false := by
  have measures : ∀ env r, r = raw1 ∨ r = raw4 → ∃ t, exec .measure { session env with rawIn := some r } = .next t := by
    intro env r hr
    have h : ∃ t, exec .measure { loaded with rawIn := some r } = .next t := by
      rcases hr with rfl | rfl <;> exact exists_next (by decide)
    obtain ⟨t, ht⟩ := h
    exact ⟨_, exec_other_driver (session []).driver env [] ht⟩
  refine ⟨fun sb r hr => ⟨⟨rfl, rfl⟩, rfl, rfl, measures _ r hr⟩, by simp, fun h => ?_, ⟨rfl, rfl⟩, rfl⟩
  rwa [show (0xFF : Byte) = BitVec.allOnes 8 by decide, BitVec.allOnes_and]

/-- Each clause: a failed transfer, no lock and no handle, at the status read and at the data read; a release with and without
a handle. -/
theorem witness_ReadFailureInvalidates :
    (∀ site ∈ [Site.status, Site.data], ∀ env,
      (driving (.txn site .transfer) (some 1) env).cmd = none ∧ (driving (.txn site .transfer) (some 1) env).env = env ∧
      (driving (.txn site .transfer) (some 1) env).driver.task = .txn site .transfer ∧
      (driving (.txn site .acquire) (some 1) env).driver.task = .txn site .acquire ∧
      (driving (.txn site .acquire) (some 1) env).driver.handle = some 1 ∧
      (driving (.txn site .acquire) none env).driver.handle = none) ∧
    (session (asked .release :: List.replicate 3 (granted 0 []))).driver.handle = some 1 ∧
    (session (asked .release :: List.replicate 3 (granted 0 []))).driver.task = .idle ∧
    (driving .idle none [asked .release]).driver.handle = none :=
  ⟨fun _ _ _ => ⟨rfl, rfl, rfl, rfl, rfl, rfl⟩, rfl, rfl, rfl⟩

/-- A driver step that is under way; an idle driver. -/
theorem witness_HostOperationsEnd_LatencyBounded :
    (driving (.txn (.probe .primary 2) .acquire) none []).driver.task ≠ .idle ∧
    (session []).driver.task = .idle := ⟨by decide, rfl⟩

end Sys2Proof.Tests
end

section
/-! PROOF. What a step leaves unchanged, and the host's reads of the registers (00_scope.md R8, R9, R14; 10_state.md R30). -/

open Sys2Proof Sys2Proof.Machine Sys2Proof.Certificates

namespace Sys2Proof.Proofs

/-- No step writes a parameter: a command writes the CDP's registers only, and a driver step has its own frame. -/
theorem step_par_hostPar {s t : State} (h : step s = .next t) : t.par = s.par ∧ t.hostPar = s.hostPar := by
  rcases step_cases h with ⟨op, -, hx⟩ | ⟨-, -, rfl⟩ | ⟨-, call, ok, handle, bytes, -, rfl⟩
  · rw [exec_frame hx]
    exact ⟨rfl, rfl⟩
  · simp
  · have hf := DriverFrame.driverStep call ok handle bytes s.afterTurn
    exact ⟨by simpa using hf.par, by simpa using hf.hostPar⟩

/-- Settles O49: each kind of step has a frame that holds both parameter records. -/
theorem parametersAreFixed : Obligations.ParametersAreFixed := by
  unfold Obligations.ParametersAreFixed
  exact fun _ _ h => step_par_hostPar h

/-! ### Reads of registers -/

/-- The step in which an idle host is asked to read a register. -/
theorem step_readReg {s : State} {r : Reg} {rest : List Turn} (hq : Quiet s) (he : s.env = asked (.readReg r) :: rest) :
    step s = .next (readRegister r { s with env := rest }) := by
  obtain ⟨hidle, hcmd⟩ := hq
  rw [step_turn hcmd he]
  simp [driverStep, hidle, startCall]

theorem readRegister_of_some {s : State} {r : Reg} {v : RegVal} (h : s.cdp.read r = some v) :
    readRegister r s = s.finish (.regVal v) := by simp [readRegister, h]

theorem readRegister_of_none {s : State} {r : Reg} (h : s.cdp.read r = none) : readRegister r s = s.readUnset r := by
  simp [readRegister, h]

/-- A step leaves the record of `UnsetRead` as it is, or it is a turn of the host that found a register to hold ⊥ (R267). -/
theorem step_unsetRead {s t : State} (h : step s = .next t) :
    t.unsetRead = s.unsetRead ∨
      (s.cmd = none ∧ ∃ r, s.cdp.read r = none ∧ t.unsetRead = some (s.unsetRead.getD r)) := by
  rcases step_cases h with ⟨op, -, hx⟩ | ⟨-, -, rfl⟩ | ⟨hcmd, call, ok, handle, bytes, -, rfl⟩
  · rw [exec_frame hx]
    exact .inl rfl
  · simp
  · have hf := (DriverFrame.driverStep call ok handle bytes s.afterTurn).unsetRead
    simp only [State.afterTurn_unsetRead, State.afterTurn_cdp] at hf
    exact hf.imp_right fun hr => ⟨hcmd, hr⟩

/-- Settles O38: the reading turn, the permanence of the record, and the type of each register. -/
theorem registerReads : Obligations.RegisterReads := by
  unfold Obligations.RegisterReads
  refine ⟨fun s r rest hq he => ⟨fun v hv => ?_, fun hn => ?_⟩, fun s t h => ⟨fun r hr => ?_, fun r hs ht => ?_⟩, fun c => ?_⟩
  · have hidle := hq.1
    rw [step_readReg hq he, readRegister_of_some (by exact hv)]
    simp [State.finish, hidle]
  · have hidle := hq.1
    rw [step_readReg hq he, readRegister_of_none (by exact hn)]
    simp [State.readUnset, State.finish, hidle]
  · rcases step_unsetRead h with e | ⟨-, r', -, e⟩
    · rw [e, hr]
    · rw [e, hr]; rfl
  · rcases step_unsetRead h with e | ⟨hcmd, r', hr', e⟩
    · rw [e, hs] at ht; cases ht
    · rw [e, hs] at ht; cases ht; exact ⟨hcmd, hr'⟩
  · simp [Cdp.read, readU, readS, Option.map_map, Function.comp_def]

end Sys2Proof.Proofs
end

section
/-! PROOF. The evaluators on the hardware are two's-complement datapaths (00_scope.md R7, R12, R13), and `tdiv_64`
truncates toward zero (43_pressure.md R172). -/

open Sys2Proof Sys2Proof.Machine Sys2Proof.Certificates

namespace Sys2Proof.Proofs

/-! ### Operands and constants as words of the datapath -/

/-- A zero-extended operand keeps its unsigned value. -/
theorem toNat_eq_toInt_setWidth {n w : Nat} (h : n < w) (x : BitVec n) : (x.toNat : Int) = (x.setWidth w).toInt := by
  rw [BitVec.toInt_setWidth, Int.bmod_eq_of_le]
  all_goals
    have hx := x.isLt
    have hp : 2 ^ (n + 1) ≤ 2 ^ w := Nat.pow_le_pow_right (by omega) h
    rw [pow_succ] at hp
    omega

/-- A sign-extended operand keeps its signed value. -/
theorem toInt_eq_toInt_signExtend {n w : Nat} (h : n ≤ w) (x : BitVec n) : x.toInt = (x.signExtend w).toInt :=
  (BitVec.toInt_signExtend_of_le h).symm

/-- The right shift of a zero-extended operand is a logical one. -/
theorem asr_toInt_setWidth {n w : Nat} (h : n < w) (x : BitVec n) (i : Nat) :
    asr (x.setWidth w).toInt i = (x.setWidth w >>> i).toInt := by
  have hm : (x.setWidth w).msb = false := by
    rw [BitVec.msb_eq_false_iff_two_mul_lt, BitVec.toNat_setWidth_of_le h.le]
    have hx := x.isLt
    have hp : 2 ^ (n + 1) ≤ 2 ^ w := Nat.pow_le_pow_right (by omega) h
    rw [pow_succ] at hp
    omega
  rw [asr_toInt, BitVec.sshiftRight_eq_of_msb_false hm]

/-! ### One line of an evaluator, and operators with a constant operand -/

/-- The next line of an evaluator, once an operator has answered. Proved by rewriting, not by `rfl`: a definitional step
here makes the kernel evaluate the operators of the line. -/
theorem some_bind_eq {α β : Type} (x : α) (f : α → Option β) : (some x >>= f) = f x := by
  rw [Option.bind_eq_bind, Option.bind_some]

theorem opAdd_const {w : Nat} (hw : 0 < w) (a : BitVec w) {c : BitVec w} {n : Int} (hc : c.toInt = n) :
    opAdd .wrap w a.toInt n = some (a + c).toInt := hc ▸ opAdd_toInt hw a c

theorem opSub_const {w : Nat} (hw : 0 < w) (a : BitVec w) {c : BitVec w} {n : Int} (hc : c.toInt = n) :
    opSub .wrap w a.toInt n = some (a - c).toInt := hc ▸ opSub_toInt hw a c

theorem opSub_const_left {w : Nat} (hw : 0 < w) (a : BitVec w) {c : BitVec w} {n : Int} (hc : c.toInt = n) :
    opSub .wrap w n a.toInt = some (c - a).toInt := hc ▸ opSub_toInt hw c a

theorem opMul_const {w : Nat} (hw : 0 < w) (a : BitVec w) {c : BitVec w} {n : Int} (hc : c.toInt = n) :
    opMul .wrap w a.toInt n = some (a * c).toInt := hc ▸ opMul_toInt hw a c

/-! ### CompT -/

theorem fineTemperature_wrap (adcT : BitVec 20) (k : Calib) :
    fineTemperature .wrap adcT.toNat k = some (fineDatapath adcT k).toInt := by
  have h32 : 0 < 32 := by decide
  unfold fineTemperature fineDatapath
  simp only [toNat_eq_toInt_setWidth (by decide : 20 < 32), toNat_eq_toInt_setWidth (by decide : 16 < 32),
    toInt_eq_toInt_signExtend (by decide : 16 ≤ 32), asr_toInt_setWidth (by decide : 20 < 32), opSub_toInt h32,
    opShl_toInt h32, opMul_toInt h32, opAdd_toInt h32, asr_toInt, some_bind_eq]

theorem temperatureOf_wrap (tf : BitVec 32) : temperatureOf .wrap tf.toInt = some (temperatureDatapath tf).toInt := by
  have h32 : 0 < 32 := by decide
  have c5 (a : BitVec 32) := opMul_const h32 a (show (5 : BitVec 32).toInt = 5 by decide)
  have c128 (a : BitVec 32) := opAdd_const h32 a (show (128 : BitVec 32).toInt = 128 by decide)
  unfold temperatureOf temperatureDatapath
  simp only [c5, c128, asr_toInt, some_bind_eq, Option.pure_def]

/-- Settles O19: every operator of CompT is the word operation of the datapath. -/
theorem temperatureIsDatapath : Obligations.TemperatureIsDatapath := by
  unfold Obligations.TemperatureIsDatapath
  intro adcT k
  simp [compT, fineTemperature_wrap, temperatureOf_wrap]

/-! ### CompP -/

/-- The offset of `pressureDatapath`. -/
def offsetDatapath (tf : BitVec 32) (k : Calib) : BitVec 64 :=
  let v := tf.signExtend 64 - 128000
  v * v * k.p6.signExtend 64 + ((v * k.p5.signExtend 64) <<< 17) + (k.p4.signExtend 64 <<< 35)

/-- The denominator of `pressureDatapath`. -/
def denominatorDatapath (tf : BitVec 32) (k : Calib) : BitVec 64 :=
  let v := tf.signExtend 64 - 128000
  let num := (v * v * k.p3.signExtend 64).sshiftRight 8 + ((v * k.p2.signExtend 64) <<< 12)
  ((((1 : BitVec 64) <<< 47) + num) * k.p1.setWidth 64).sshiftRight 33

/-- The lines of `pressureDatapath` from the division on. -/
def quotientDatapath (adcP : BitVec 20) (den off : BitVec 64) (k : Calib) : BitVec 64 :=
  let p := ((((1048576 - adcP.setWidth 64) <<< 31) - off) * 3125).sdiv den
  let a := (k.p9.signExtend 64 * p.sshiftRight 13 * p.sshiftRight 13).sshiftRight 25
  let b := (k.p8.signExtend 64 * p).sshiftRight 19
  (p + a + b).sshiftRight 8 + (k.p7.signExtend 64 <<< 4)

theorem pressureDatapath_eq (adcP : BitVec 20) (tf : BitVec 32) (k : Calib) :
    pressureDatapath adcP tf k =
      if denominatorDatapath tf k = 0 then (0, true)
      else (quotientDatapath adcP (denominatorDatapath tf k) (offsetDatapath tf k) k, false) := rfl

theorem opSub_128000 (a : BitVec 64) : opSub .wrap 64 a.toInt 128000 = some (a - 128000).toInt :=
  opSub_const (by decide) a (by decide)

theorem pressureOffset_wrap (tf : BitVec 32) (k : Calib) :
    pressureOffset .wrap tf.toInt k = some (offsetDatapath tf k).toInt := by
  have h64 : 0 < 64 := by decide
  unfold pressureOffset offsetDatapath
  simp only [toInt_eq_toInt_signExtend (by decide : 32 ≤ 64), toInt_eq_toInt_signExtend (by decide : 16 ≤ 64),
    opSub_128000, opShl_toInt h64, opMul_toInt h64, opAdd_toInt h64, some_bind_eq]

theorem pressureDenominator_wrap (tf : BitVec 32) (k : Calib) :
    pressureDenominator .wrap tf.toInt k = some (denominatorDatapath tf k).toInt := by
  have h64 : 0 < 64 := by decide
  have h1 : opShl .wrap 64 1 47 = some ((1 : BitVec 64) <<< 47).toInt := opShl_toInt h64 1 47
  unfold pressureDenominator denominatorDatapath
  simp only [toInt_eq_toInt_signExtend (by decide : 32 ≤ 64), toInt_eq_toInt_signExtend (by decide : 16 ≤ 64),
    toNat_eq_toInt_setWidth (by decide : 16 < 64), h1, opSub_128000, opShl_toInt h64, opMul_toInt h64, opAdd_toInt h64,
    asr_toInt, some_bind_eq, Option.pure_def]

theorem pressureQuotient_wrap (adcP : BitVec 20) (den off : BitVec 64) (k : Calib) :
    pressureQuotient .wrap adcP.toNat den.toInt off.toInt k = some (quotientDatapath adcP den off k).toInt := by
  have h64 : 0 < 64 := by decide
  have hr (a : BitVec 64) := opSub_const_left h64 a (show (1048576 : BitVec 64).toInt = 1048576 by decide)
  have hm (a : BitVec 64) := opMul_const h64 a (show (3125 : BitVec 64).toInt = 3125 by decide)
  unfold pressureQuotient quotientDatapath
  simp only [toInt_eq_toInt_signExtend (by decide : 16 ≤ 64), toNat_eq_toInt_setWidth (by decide : 20 < 64), hr, hm,
    opSub_toInt h64, opShl_toInt h64, opMul_toInt h64, opAdd_toInt h64, opDiv_toInt h64, asr_toInt,
    some_bind_eq]

/-- Settles O20: CompP's three parts are parts of the datapath, and the guard tests the same word. -/
theorem pressureIsDatapath : Obligations.PressureIsDatapath := by
  unfold Obligations.PressureIsDatapath
  intro adcP tf k
  rw [compP_eq (pressureOffset_wrap tf k) (pressureDenominator_wrap tf k), pressureQuotient_wrap, pressureDatapath_eq]
  have hz : (denominatorDatapath tf k).toInt = 0 ↔ denominatorDatapath tf k = 0 := by
    rw [← BitVec.toInt_zero (w := 64), BitVec.toInt_inj]; rfl
  by_cases h : denominatorDatapath tf k = 0
  · rw [if_pos (hz.mpr h), if_pos h]
    rfl
  · rw [if_neg (mt hz.mp h), if_neg h]
    rfl

/-! ### CompH -/

/-- The clamps compare words as signed values (R190, R191). -/
theorem clampHumidity_toInt (u : BitVec 32) :
    clampHumidity u.toInt = (if u.slt 0 then 0 else if (419430400 : BitVec 32).slt u then 419430400 else u).toInt := by
  have h0 : u.slt 0 = true ↔ u.toInt < 0 := BitVec.slt_iff_toInt_lt
  have hmax : (419430400 : BitVec 32).slt u = true ↔ 419430400 < u.toInt := BitVec.slt_iff_toInt_lt
  simp only [clampHumidity, h0, hmax]
  split
  · rfl
  · split <;> rfl

/-- `v` of `humidityDatapath` before the clamps. -/
def unclampedDatapath (adcH : BitVec 16) (tf : BitVec 32) (k : Calib) : BitVec 32 :=
  let v := tf - 76800
  let x := ((adcH.setWidth 32 <<< 14) - (k.h4.signExtend 32 <<< 20) - k.h5.signExtend 32 * v + 16384).sshiftRight 15
  let g := (v * k.h6.signExtend 32).sshiftRight 10 * ((v * k.h3.setWidth 32).sshiftRight 11 + 32768)
  let y := ((g.sshiftRight 10 + 2097152) * k.h2.signExtend 32 + 8192).sshiftRight 14
  let w := x * y
  w - ((w.sshiftRight 15 * w.sshiftRight 15).sshiftRight 7 * k.h1.setWidth 32).sshiftRight 4

theorem humidityUnclamped_wrap (adcH : BitVec 16) (tf : BitVec 32) (k : Calib) :
    humidityUnclamped .wrap adcH.toNat tf.toInt k = some (unclampedDatapath adcH tf k).toInt := by
  have h32 : 0 < 32 := by decide
  have hv := opSub_const h32 tf (show (76800 : BitVec 32).toInt = 76800 by decide)
  have c16384 (a : BitVec 32) := opAdd_const h32 a (show (16384 : BitVec 32).toInt = 16384 by decide)
  have c32768 (a : BitVec 32) := opAdd_const h32 a (show (32768 : BitVec 32).toInt = 32768 by decide)
  have c2097152 (a : BitVec 32) := opAdd_const h32 a (show (2097152 : BitVec 32).toInt = 2097152 by decide)
  have c8192 (a : BitVec 32) := opAdd_const h32 a (show (8192 : BitVec 32).toInt = 8192 by decide)
  unfold humidityUnclamped humidityX humidityY unclampedDatapath
  rw [hv]
  simp only [toNat_eq_toInt_setWidth (by decide : 16 < 32), toNat_eq_toInt_setWidth (by decide : 8 < 32),
    toInt_eq_toInt_signExtend (by decide : 16 ≤ 32), toInt_eq_toInt_signExtend (by decide : 12 ≤ 32),
    toInt_eq_toInt_signExtend (by decide : 8 ≤ 32), c16384, c32768, c2097152, c8192, opSub_toInt h32, opShl_toInt h32, opMul_toInt h32,
    asr_toInt, some_bind_eq, pure_bind]

/-- Settles O21: the lines up to the clamps are word operations, and the clamps are signed comparisons of words. -/
theorem humidityIsDatapath : Obligations.HumidityIsDatapath := by
  unfold Obligations.HumidityIsDatapath
  intro adcH tf k
  rw [compH, humidityUnclamped_wrap, Option.bind_eq_bind, Option.bind_some, clampHumidity_toInt, asr_toInt]
  rfl

/-! ### Division -/

/-- The one quotient of two s64 values that is no s64 value is −2^63 / −1 (R172). -/
theorem tdiv_inWidth {n d : Int} (hlo : -2 ^ 63 ≤ n) (hhi : n < 2 ^ 63) (hd : d ≠ 0) (hex : ¬(n = -2 ^ 63 ∧ d = -1)) :
    InWidth 64 (n.tdiv d) := by
  have hle : n.natAbs / d.natAbs ≤ n.natAbs := Nat.div_le_self ..
  have hq : (n.tdiv d).natAbs = n.natAbs / d.natAbs := Int.natAbs_tdiv ..
  unfold InWidth
  by_cases h1 : d = -1
  · subst h1
    rw [Int.tdiv_neg, Int.tdiv_one]
    omega
  · by_cases hmin : n = -2 ^ 63
    · by_cases h2 : d = 1
      · subst h2; rw [Int.tdiv_one]; omega
      · have hlt : n.natAbs / d.natAbs < n.natAbs := Nat.div_lt_self (by omega) (by omega)
        omega
    · omega

/-- A quotient that is not 0 has the sign of the operands' product. -/
theorem tdiv_pos_iff {n d : Int} (hq : n.tdiv d ≠ 0) : 0 < n.tdiv d ↔ (0 < n ↔ 0 < d) := by
  have hn : n ≠ 0 := by rintro rfl; simp at hq
  have hd : d ≠ 0 := by rintro rfl; simp at hq
  have nonneg {a b : Int} (ha : 0 ≤ a) (hb : 0 ≤ b) : 0 ≤ a.tdiv b := Int.tdiv_nonneg ha hb
  rcases lt_or_gt_of_ne hn with h | h <;> rcases lt_or_gt_of_ne hd with h' | h'
  · have := nonneg (neg_nonneg.mpr h.le) (neg_nonneg.mpr h'.le)
    rw [Int.neg_tdiv_neg] at this
    omega
  · have := nonneg (neg_nonneg.mpr h.le) h'.le
    rw [Int.neg_tdiv] at this
    omega
  · have := nonneg h.le (neg_nonneg.mpr h'.le)
    rw [Int.tdiv_neg] at this
    omega
  · have := nonneg h.le h'.le
    omega

/-- The denominator of CompP is an s64 value shifted right by 33 (R172). -/
theorem pressureDenominator_inWidth {m : OvfMode} {tf den : Int} {k : Calib} (h : pressureDenominator m tf k = some den) :
    InWidth 31 den := by
  unfold pressureDenominator at h
  simp only [Option.bind_eq_bind, Option.bind_eq_some_iff] at h
  obtain ⟨v, -, vv, -, a, -, b, -, c, -, e, -, g, -, s, -, prod, hp, hden⟩ := h
  cases hden
  exact asr_inWidth (w := 64) (n := 33) (by decide) (narrow_spec (by decide) hp).1

/-- Settles O26: the quotient's magnitude and sign, the one overflow, and the range of CompP's divisor. -/
theorem divisionTruncates : Obligations.DivisionTruncates := by
  unfold Obligations.DivisionTruncates
  refine ⟨fun m n d hlo hhi hd hex => ?_, by decide, by decide, fun m tf den k h => ?_⟩
  · have hq : opDiv m 64 n d = some (n.tdiv d) := narrow_of_inWidth m (by decide) (tdiv_inWidth hlo hhi hd hex)
    exact ⟨_, hq, Int.natAbs_tdiv .., tdiv_pos_iff⟩
  · have hw := pressureDenominator_inWidth h
    unfold InWidth at hw
    omega

end Sys2Proof.Proofs
end

section
/-! PROOF. The evaluators under `OVF_MODE = fault` (00_scope.md R8, R13; 60_exceptions.md R266): the operations that never
leave their width, the ones that stop an evaluator, and the agreement with the hardware. -/

open Sys2Proof Sys2Proof.Machine Sys2Proof.Certificates

namespace Sys2Proof.Proofs

/-! ### The operators where their exact result fits, and under `OVF_MODE = fault` -/

theorem fits_iff_inWidth (w : Nat) (v : Int) : Fits w v ↔ InWidth w v := by simp [Fits, InWidth]

theorem narrow_of_fits (m : OvfMode) {w : Nat} (hw : 0 < w) {v : Int} (h : Fits w v) : narrow m w v = some v :=
  narrow_of_inWidth m hw ((fits_iff_inWidth w v).mp h)

theorem opAdd_of_fits {m : OvfMode} {w : Nat} {a b : Int} (hw : 0 < w) (h : Fits w (a + b)) :
    opAdd m w a b = some (a + b) := narrow_of_fits m hw h

theorem opSub_of_fits {m : OvfMode} {w : Nat} {a b : Int} (hw : 0 < w) (h : Fits w (a - b)) :
    opSub m w a b = some (a - b) := narrow_of_fits m hw h

theorem opMul_of_fits {m : OvfMode} {w : Nat} {a b : Int} (hw : 0 < w) (h : Fits w (a * b)) :
    opMul m w a b = some (a * b) := narrow_of_fits m hw h

theorem opShl_of_fits {m : OvfMode} {w : Nat} {a : Int} {n : Nat} (hw : 0 < w) (h : Fits w (a * 2 ^ n)) :
    opShl m w a n = some (a * 2 ^ n) := by
  have hn : ((2 ^ n : Nat) : Int) = 2 ^ n := by push_cast; rfl
  rw [opShl, hn]
  exact narrow_of_fits m hw h

theorem asr_eq (a : Int) (n : Nat) : asr a n = a / 2 ^ n := by simp [asr]

theorem narrow_fault {w : Nat} (hw : 0 < w) (v : Int) : narrow .fault w v = if Fits w v then some v else none := by
  split
  · exact narrow_of_fits .fault hw ‹_›
  · cases h : narrow .fault w v with
    | none => rfl
    | some r => exact absurd ((fits_iff_inWidth w v).mpr ((narrow_fault_iff hw v r).mp h).1) ‹_›

theorem narrow_fault_bind {α : Type} {w : Nat} (hw : 0 < w) (v : Int) (f : Int → Option α) :
    (narrow .fault w v >>= f) = if Fits w v then f v else none := by
  rw [narrow_fault hw]
  split <;> rfl

/-- The lines after a test run where it holds. -/
theorem ite_bind {α β : Type} {p : Prop} [Decidable p] (a : Option α) (f : α → Option β) :
    ((if p then a else none) >>= f) = if p then a >>= f else none := by split <;> rfl

/-- A conjunction of tests is one test after the other. -/
theorem ite_fits_and {α : Type} {w : Nat} {v : Int} {p : Prop} [Decidable p] {a b : α} :
    (if Fits w v ∧ p then a else b) = if Fits w v then (if p then a else b) else b := ite_and ..

/-- A test that an earlier one implies. -/
theorem ite_ite_of_imp {α : Type} {p q : Prop} [Decidable p] [Decidable q] {a b c : α} (h : p → q) :
    (if p then (if q then a else b) else c) = if p then a else c := by
  split
  · rw [if_pos (h ‹_›)]
  · rfl

/-! ### Bounds of the operands -/

theorem natAbs_mul_le {a b : Int} {A B : Nat} (ha : a.natAbs ≤ A) (hb : b.natAbs ≤ B) : (a * b).natAbs ≤ A * B :=
  Int.natAbs_mul a b ▸ Nat.mul_le_mul ha hb

theorem fits_toInt {w : Nat} (b : BitVec w) : Fits w b.toInt := by
  have h1 := BitVec.le_toInt b
  have h2 := BitVec.toInt_lt (x := b)
  exact ⟨h1, h2⟩

theorem natAbs_toInt16_le (b : BitVec 16) : b.toInt.natAbs ≤ 2 ^ 15 := by
  have := fits_toInt b
  omega

/-! ### CompP -/

theorem natAbs_sub_128000_le {tf : Int} (h : FineRange tf) : (tf - 128000).natAbs ≤ 1307648 := by
  obtain ⟨hlo, hhi⟩ := h
  omega

theorem pressureOffset_eq (m : OvfMode) {tf : Int} (h : FineRange tf) (k : Calib) :
    pressureOffset m tf k = some ((tf - 128000) * (tf - 128000) * k.p6.toInt + (tf - 128000) * k.p5.toInt * 2 ^ 17 +
      k.p4.toInt * 2 ^ 35) := by
  have h64 : 0 < 64 := by decide
  have hv := natAbs_sub_128000_le h
  have hvv := natAbs_mul_le hv hv
  have h6 := natAbs_mul_le hvv (natAbs_toInt16_le k.p6)
  have h5 := natAbs_mul_le hv (natAbs_toInt16_le k.p5)
  have h4 := natAbs_toInt16_le k.p4
  simp (disch := omega) only [pressureOffset, opSub_of_fits, opMul_of_fits, opShl_of_fits, opAdd_of_fits, some_bind_eq]

/-- The exact product whose `>> 33` is CompP's denominator (R170, R171). -/
def denominatorProduct (tf : Int) (k : Calib) : Int :=
  (2 ^ 47 + ((tf - 128000) * (tf - 128000) * k.p3.toInt / 2 ^ 8 + (tf - 128000) * k.p2.toInt * 2 ^ 12)) * k.p1.toNat

/-- Only the last product of the denominator can leave s64 (R174). -/
theorem pressureDenominator_eq (m : OvfMode) {tf : Int} (h : FineRange tf) (k : Calib) :
    pressureDenominator m tf k = (narrow m 64 (denominatorProduct tf k)).map (· / 2 ^ 33) := by
  have h64 : 0 < 64 := by decide
  have hv := natAbs_sub_128000_le h
  have hvv := natAbs_mul_le hv hv
  have h3 := natAbs_mul_le hvv (natAbs_toInt16_le k.p3)
  have h2 := natAbs_mul_le hv (natAbs_toInt16_le k.p2)
  simp (disch := omega) only [pressureDenominator, opSub_of_fits, opMul_of_fits, opShl_of_fits, opAdd_of_fits, some_bind_eq,
    asr_eq, one_mul]
  rw [Option.map_eq_bind]
  rfl

/-- The lines from the division on, for a denominator and a bounded offset: the operations that can leave s64 (R172). -/
theorem pressureQuotient_fault (adcP : BitVec 20) {off : Int} (hoff : off.natAbs < 2 ^ 60) (den : Int) (k : Calib) :
    let num : Int := ((1048576 - adcP.toNat) * 2 ^ 31 - off) * 3125
    let q : Int := num.tdiv den
    let a1 : Int := k.p9.toInt * (q / 2 ^ 13)
    let a : Int := a1 * (q / 2 ^ 13)
    let b : Int := k.p8.toInt * q
    let sum : Int := q + a / 2 ^ 25 + b / 2 ^ 19
    pressureQuotient .fault adcP.toNat den off k =
      if Fits 64 num ∧ Fits 64 q ∧ Fits 64 a1 ∧ Fits 64 a ∧ Fits 64 b ∧ Fits 64 (q + a / 2 ^ 25) ∧ Fits 64 sum then
        some (sum / 2 ^ 8 + k.p7.toInt * 2 ^ 4)
      else none := by
  intro num q a1 a b sum
  have h64 : 0 < 64 := by decide
  have hadc := adcP.isLt
  have h7 := natAbs_toInt16_le k.p7
  have hlast : Fits 64 sum → Fits 64 (sum / 2 ^ 8 + k.p7.toInt * 2 ^ 4) := by omega
  simp (disch := omega) only [pressureQuotient, opSub_of_fits, opShl_of_fits, some_bind_eq]
  simp only [opAdd, opMul, opDiv, narrow_fault_bind h64, asr_eq, ite_fits_and]
  rw [narrow_fault h64, ite_ite_of_imp hlast]

/-- CompP under `OVF_MODE = fault` (R170, R171, R172, R174). -/
theorem compP_fault (adcP : BitVec 20) {tf : Int} (h : FineRange tf) (k : Calib) :
    let v : Int := tf - 128000
    let off : Int := v * v * k.p6.toInt + v * k.p5.toInt * 2 ^ 17 + k.p4.toInt * 2 ^ 35
    let prod : Int := denominatorProduct tf k
    let den : Int := prod / 2 ^ 33
    compP .fault adcP.toNat tf k =
      if Fits 64 prod then
        if den = 0 then some (0, true) else (pressureQuotient .fault adcP.toNat den off k).map (·, false)
      else none := by
  intro v off prod den
  have hd := pressureDenominator_eq .fault h k
  rw [narrow_fault (by decide)] at hd
  split
  · rw [if_pos ‹_›] at hd
    exact compP_eq (pressureOffset_eq .fault h k) hd
  · rw [if_neg ‹_›] at hd
    rw [compP, hd]
    cases pressureOffset .fault tf k <;> rfl

theorem pressureOffset_natAbs_lt {tf : Int} (h : FineRange tf) (k : Calib) :
    ((tf - 128000) * (tf - 128000) * k.p6.toInt + (tf - 128000) * k.p5.toInt * 2 ^ 17 + k.p4.toInt * 2 ^ 35).natAbs < 2 ^ 60 := by
  have hv := natAbs_sub_128000_le h
  have h6 := natAbs_mul_le (natAbs_mul_le hv hv) (natAbs_toInt16_le k.p6)
  have h5 := natAbs_mul_le hv (natAbs_toInt16_le k.p5)
  have h4 := natAbs_toInt16_le k.p4
  omega

/-! ### CompH -/

/-- The `x` line of R190 under `OVF_MODE = fault`. -/
theorem humidityX_fault (adcH : BitVec 16) (v : Int) (k : Calib) :
    let x1 : Int := adcH.toNat * 2 ^ 14 - k.h4.toInt * 2 ^ 20
    let x2 : Int := x1 - k.h5.toInt * v
    humidityX .fault adcH.toNat v k =
      if Fits 32 x1 ∧ Fits 32 (k.h5.toInt * v) ∧ Fits 32 x2 ∧ Fits 32 (x2 + 16384) then some ((x2 + 16384) / 2 ^ 15)
      else none := by
  intro x1 x2
  have h32 : 0 < 32 := by decide
  have hadc := adcH.isLt
  have h4 := fits_toInt k.h4
  simp (disch := omega) only [humidityX, opShl_of_fits, some_bind_eq]
  simp only [opSub, opMul, opAdd, narrow_fault_bind h32, asr_eq, ite_fits_and]
  rfl

/-- The `y` line of R190 under `OVF_MODE = fault`. -/
theorem humidityY_fault {v : Int} (hv : v.natAbs ≤ 1256448) (k : Calib) :
    let g : Int := v * k.h6.toInt / 2 ^ 10 * (v * k.h3.toNat / 2 ^ 11 + 32768)
    let y1 : Int := (g / 2 ^ 10 + 2097152) * k.h2.toInt
    humidityY .fault v k =
      if Fits 32 g ∧ Fits 32 y1 ∧ Fits 32 (y1 + 8192) then some ((y1 + 8192) / 2 ^ 14) else none := by
  intro g y1
  have h32 : 0 < 32 := by decide
  have h6 : (v * k.h6.toInt).natAbs ≤ 1256448 * 2 ^ 7 := natAbs_mul_le hv (by have := fits_toInt k.h6; omega)
  have h3 : (v * (k.h3.toNat : Int)).natAbs ≤ 1256448 * 2 ^ 8 := natAbs_mul_le hv (by have := k.h3.isLt; omega)
  have hg : Fits 32 g → Fits 32 (g / 2 ^ 10 + 2097152) := by omega
  simp (disch := omega) only [humidityY, opMul_of_fits (a := v), opAdd_of_fits (b := 32768), some_bind_eq, asr_eq]
  simp only [opMul, opAdd, narrow_fault_bind h32, ite_fits_and]
  rw [ite_ite_of_imp hg]
  rfl

theorem clampHumidity_eq (v : Int) : clampHumidity v = max 0 (min v 419430400) := by
  unfold clampHumidity
  split_ifs <;> omega

/-- CompH under `OVF_MODE = fault` (R190, R193). -/
theorem compH_fault (adcH : BitVec 16) {tf : Int} (h : FineRange tf) (k : Calib) :
    let v : Int := tf - 76800
    let x1 : Int := adcH.toNat * 2 ^ 14 - k.h4.toInt * 2 ^ 20
    let x2 : Int := x1 - k.h5.toInt * v
    let x : Int := (x2 + 16384) / 2 ^ 15
    let g : Int := v * k.h6.toInt / 2 ^ 10 * (v * k.h3.toNat / 2 ^ 11 + 32768)
    let y1 : Int := (g / 2 ^ 10 + 2097152) * k.h2.toInt
    let y : Int := (y1 + 8192) / 2 ^ 14
    let w : Int := x * y
    let sq : Int := w / 2 ^ 15 * (w / 2 ^ 15)
    let corr : Int := sq / 2 ^ 7 * k.h1.toNat
    let u : Int := w - corr / 2 ^ 4
    compH .fault adcH.toNat tf k =
      if Fits 32 x1 ∧ Fits 32 (k.h5.toInt * v) ∧ Fits 32 x2 ∧ Fits 32 (x2 + 16384) ∧ Fits 32 g ∧ Fits 32 y1 ∧
          Fits 32 (y1 + 8192) ∧ Fits 32 w ∧ Fits 32 sq ∧ Fits 32 corr ∧ Fits 32 u then
        some (max 0 (min u 419430400) / 2 ^ 12)
      else none := by
  intro v x1 x2 x g y1 y w sq corr u
  have h32 : 0 < 32 := by decide
  obtain ⟨hlo, hhi⟩ := h
  have hv : opSub .fault 32 tf 76800 = some (tf - 76800) := opSub_of_fits h32 (by omega)
  rw [compH, humidityUnclamped, hv, some_bind_eq, humidityX_fault, humidityY_fault (by omega)]
  simp only [opMul, opSub, ite_bind, some_bind_eq, narrow_fault h32, asr_eq, clampHumidity_eq,
    ite_fits_and]
  rfl

/-! ### The hardware agrees where `OVF_MODE = fault` answers -/

/-- Where `a` answers, `b` answers the same. -/
def AnswersLike {α : Type} (a b : Option α) : Prop := ∀ r, a = some r → b = some r

theorem AnswersLike.refl {α : Type} (a : Option α) : AnswersLike a a := fun _ h => h

theorem AnswersLike.narrow (w : Nat) (v : Int) : AnswersLike (narrow .fault w v) (narrow .wrap w v) :=
  fun _ h => narrow_fault_le h

/-- Two evaluators agree line by line. -/
theorem AnswersLike.bind {α β : Type} {a b : Option α} {f g : α → Option β} (h : AnswersLike a b)
    (hfg : ∀ x, AnswersLike (f x) (g x)) : AnswersLike (a >>= f) (b >>= g) := by
  intro r hr
  obtain ⟨x, hx, hf⟩ := Option.bind_eq_some_iff.mp hr
  exact Option.bind_eq_some_iff.mpr ⟨x, h x hx, hfg x r hf⟩

theorem compT_answersLike (adcT : Int) (k : Calib) : AnswersLike (compT .fault adcT k) (compT .wrap adcT k) := by
  refine .bind ?_ fun tf => .bind ?_ fun t => .refl _
  -- In each part, every line is one operator whose result the next line takes.
  · unfold fineTemperature
    repeat refine .bind (.narrow _ _) fun _ => ?_
    exact .narrow _ _
  · unfold temperatureOf
    repeat refine .bind (.narrow _ _) fun _ => ?_
    exact .refl _

theorem compP_answersLike (adcP tf : Int) (k : Calib) : AnswersLike (compP .fault adcP tf k) (compP .wrap adcP tf k) := by
  refine .bind ?_ fun off => .bind ?_ fun den => ?_
  · unfold pressureOffset
    repeat refine .bind (.narrow _ _) fun _ => ?_
    exact .narrow _ _
  · unfold pressureDenominator
    repeat refine .bind (.narrow _ _) fun _ => ?_
    exact .refl _
  · split
    · exact .refl _
    · refine .bind ?_ fun p => .refl _
      unfold pressureQuotient
      repeat refine .bind (.narrow _ _) fun _ => ?_
      exact .narrow _ _

theorem compH_answersLike (adcH tf : Int) (k : Calib) : AnswersLike (compH .fault adcH tf k) (compH .wrap adcH tf k) := by
  refine .bind ?_ fun u => .refl _
  refine .bind (.narrow _ _) fun v => .bind ?_ fun x => .bind ?_ fun y => ?_
  · unfold humidityX
    repeat refine .bind (.narrow _ _) fun _ => ?_
    exact .refl _
  · unfold humidityY
    repeat refine .bind (.narrow _ _) fun _ => ?_
    exact .refl _
  · repeat refine .bind (.narrow _ _) fun _ => ?_
    exact .narrow _ _

theorem measureResults_answersLike (par : Params) (k : Calib) (p t : BitVec 20) (h : BitVec 16) :
    AnswersLike (measureResults { par with ovfMode := .fault } k p t h)
      (measureResults { par with ovfMode := .wrap } k p t h) :=
  .bind (compT_answersLike _ k) fun _ => .bind (compP_answersLike _ _ k) fun _ => .bind (compH_answersLike _ _ k) fun _ => .refl _

/-- Settles O29: the evaluators agree line by line, and CompP and CompH stop exactly at the operations that can leave their
width. -/
theorem faultModeAgreesWithHardware : Obligations.FaultModeAgreesWithHardware := by
  unfold Obligations.FaultModeAgreesWithHardware
  refine ⟨measureResults_answersLike, fun adcP tf k h => ?_, fun adcH tf k h => compH_fault adcH h k⟩
  intro v off prod den num q a1 a b sum
  rw [compP_fault adcP h k, pressureQuotient_fault adcP (pressureOffset_natAbs_lt h k)]
  refine if_congr Iff.rfl (if_congr Iff.rfl rfl ?_) rfl
  rw [apply_ite (Option.map _)]
  rfl

end Sys2Proof.Proofs
end

section
/-! PROOF. The rounding that every floating-point operation shares is round to nearest, ties to even (00_scope.md R16). The
magnitude patterns of a format `f` are read in steps of `2 ^ (f.prec - 1)`: the pattern `j * 2 ^ (f.prec - 1) + M` has the value
`M * 2 ^ j` (`units_pattern`), so rounding at the shift `j` is rounding to an integer `M`. -/

open Sys2Proof Sys2Proof.Machine Sys2Proof.Certificates

namespace Sys2Proof.Proofs

/-! ### The value of a pattern -/

theorem units_pattern {f : FloatFmt} {j M : Nat} (hM : M ≤ 2 * 2 ^ (f.prec - 1)) (hj : j = 0 ∨ 2 ^ (f.prec - 1) ≤ M) :
    f.units (j * 2 ^ (f.prec - 1) + M) = M * 2 ^ j := by
  unfold FloatFmt.units FloatFmt.sig FloatFmt.exp
  have hP : 0 < 2 ^ (f.prec - 1) := by positivity
  generalize 2 ^ (f.prec - 1) = P at *
  rcases Nat.lt_or_ge M P with h | h
  · obtain rfl : j = 0 := by omega
    simp [Nat.div_eq_of_lt h]
  · rcases Nat.lt_or_ge M (2 * P) with h2 | h2
    · have e : j * P + M = (M - P) + (j + 1) * P := by rw [Nat.add_mul]; omega
      rw [e, Nat.add_mul_div_right _ _ hP, Nat.add_mul_mod_self_right, Nat.div_eq_of_lt (by omega),
        Nat.mod_eq_of_lt (by omega), if_neg (by omega), Nat.sub_add_cancel h]
      congr 2
      omega
    · obtain rfl : M = 2 * P := by omega
      have e : j * P + 2 * P = (j + 2) * P := by ring
      rw [e, Nat.mul_div_cancel _ hP, Nat.mul_mod_left, if_neg (by omega), show j + 2 - 1 = j + 1 by omega, pow_succ]
      ring

/-- Every pattern is a step `j` and an integer `M` below `2 ^ prec`, of full length where `j` is not 0. -/
theorem exists_pattern (f : FloatFmt) (m : Nat) :
    ∃ j M, m = j * 2 ^ (f.prec - 1) + M ∧ M < 2 * 2 ^ (f.prec - 1) ∧ (j = 0 ∨ 2 ^ (f.prec - 1) ≤ M) := by
  have hP : 0 < 2 ^ (f.prec - 1) := by positivity
  generalize 2 ^ (f.prec - 1) = P at *
  have hr : m % P < P := Nat.mod_lt m hP
  have hm : m = m / P * P + m % P := (Nat.div_add_mod' m P).symm
  cases hE : m / P with
  | zero => exact ⟨0, m, by omega, by rw [hE] at hm; omega, .inl rfl⟩
  | succ e =>
    rw [hE, Nat.add_mul] at hm
    exact ⟨e, m % P + P, by omega, by omega, .inr (by omega)⟩

theorem units_strictMono (f : FloatFmt) : StrictMono f.units := by
  refine strictMono_nat_of_lt_succ fun m => ?_
  obtain ⟨j, M, rfl, hM, hj⟩ := exists_pattern f m
  rw [units_pattern hM.le hj, Nat.add_assoc, units_pattern (by omega) (by omega)]
  exact Nat.mul_lt_mul_of_pos_right (Nat.lt_succ_self M) (by positivity)

@[simp] theorem units_zero (f : FloatFmt) : f.units 0 = 0 := by
  simpa using units_pattern (f := f) (j := 0) (M := 0) (by omega) (.inl rfl)

/-- From the step `j` on, all values are multiples of `2 ^ j`. -/
theorem units_eq_mul_two_pow {f : FloatFmt} {j m : Nat} (h : j = 0 ∨ (j + 1) * 2 ^ (f.prec - 1) ≤ m) :
    ∃ k, f.units m = k * 2 ^ j := by
  obtain ⟨i, M, rfl, hM, hi⟩ := exists_pattern f m
  have hij : j ≤ i := by
    rcases h with rfl | h
    · omega
    · have : (j + 1) * 2 ^ (f.prec - 1) < (i + 2) * 2 ^ (f.prec - 1) := by rw [Nat.add_mul i]; omega
      have := Nat.lt_of_mul_lt_mul_right this
      omega
  refine ⟨M * 2 ^ (i - j), ?_⟩
  rw [units_pattern hM.le hi, Nat.mul_assoc, ← pow_add, Nat.sub_add_cancel hij]

/-- Before the step `j` is full, all values are below `2 ^ (prec - 1) * 2 ^ j`. -/
theorem units_lt_of_lt {f : FloatFmt} {j m : Nat} (h : m < (j + 1) * 2 ^ (f.prec - 1)) :
    f.units m < 2 ^ (f.prec - 1) * 2 ^ j := by
  have hm := units_strictMono f h
  rwa [Nat.add_mul, one_mul, units_pattern (by omega) (.inr le_rfl)] at hm

/-- An integer of at most `prec` bits times a power of 2 is the value of a pattern. -/
theorem exists_units_eq (f : FloatFmt) (j : Nat) {k : Nat} (hk : k ≤ 2 * 2 ^ (f.prec - 1)) :
    ∃ m, m ≤ j * 2 ^ (f.prec - 1) + k ∧ f.units m = k * 2 ^ j := by
  induction j generalizing k with
  | zero => exact ⟨k, by omega, by simpa using units_pattern (j := 0) hk (.inl rfl)⟩
  | succ j ih =>
    rcases Nat.lt_or_ge k (2 ^ (f.prec - 1)) with h | h
    · obtain ⟨m, hm, hu⟩ := ih (k := 2 * k) (by omega)
      exact ⟨m, by rw [Nat.add_mul]; omega, by rw [hu, pow_succ]; ring⟩
    · exact ⟨_, le_rfl, units_pattern hk (.inr h)⟩

/-! ### Rounding to an integer -/

theorem roundHalfEven_le {n d k : Nat} (hd : 0 < d) (h : n ≤ k * d) : roundHalfEven n d ≤ k := by
  have hn := (roundHalfEven_nearest (n := n) hd).1
  by_contra hk
  have hm : (k + 1) * d ≤ roundHalfEven n d * d := Nat.mul_le_mul_right d (by omega)
  rw [Nat.add_mul, one_mul] at hm
  zify at hm h
  omega

theorem le_roundHalfEven {n d k : Nat} (hd : 0 < d) (h : k * d ≤ n) : k ≤ roundHalfEven n d := by
  have hn := (roundHalfEven_nearest (n := n) hd).1
  by_contra hk
  have hm : (roundHalfEven n d + 1) * d ≤ k * d := Nat.mul_le_mul_right d (by omega)
  rw [Nat.add_mul, one_mul] at hm
  zify at hm h
  omega

/-- Another integer is at least as far away, and where it is equally far the rounded one is even. -/
theorem roundHalfEven_dist {n d k : Nat} (hd : 0 < d) (hk : k ≠ roundHalfEven n d) :
    ((roundHalfEven n d : Int) * d - n).natAbs ≤ ((k : Int) * d - n).natAbs ∧
      (((roundHalfEven n d : Int) * d - n).natAbs = ((k : Int) * d - n).natAbs → roundHalfEven n d % 2 = 0) := by
  obtain ⟨hn, heven⟩ := roundHalfEven_nearest (n := n) hd
  have hgap : d ≤ ((k : Int) * d - roundHalfEven n d * d).natAbs := by
    rw [← Int.sub_mul, Int.natAbs_mul, Int.natAbs_natCast]
    exact Nat.le_mul_of_pos_left d (by omega)
  constructor
  · omega
  · intro h
    exact heven (by omega)

/-! ### Distances depend on the ratio `n / d` only -/

theorem dist_scale (u n d c : Nat) :
    ((u : Int) * (d * c : Nat) - (n * c : Nat)).natAbs = ((u : Int) * d - n).natAbs * c := by
  rw [show (u : Int) * (d * c : Nat) - (n * c : Nat) = ((u : Int) * d - n) * c by push_cast; ring, Int.natAbs_mul,
    Int.natAbs_natCast]

theorem rounds_scale {f : FloatFmt} {n d m c : Nat} (hc : 0 < c) : Rounds f (n * c) (d * c) m ↔ Rounds f n d m := by
  unfold Rounds Nearest TiesToEven
  simp only [dist_scale, Nat.mul_le_mul_right_iff hc, Nat.mul_left_inj hc.ne']

theorem rounds_of_ratio {f : FloatFmt} {n d n' d' m : Nat} (hd : 0 < d) (hd' : 0 < d') (h : n * d' = n' * d)
    (hr : Rounds f n d m) : Rounds f n' d' m := by
  rw [← rounds_scale hd'] at hr
  rwa [← rounds_scale hd, ← h, Nat.mul_comm d' d]

theorem dist_mul_two_pow (k n d j : Nat) :
    (((k * 2 ^ j : Nat) : Int) * d - (n * 2 ^ j : Nat)).natAbs = ((k : Int) * d - n).natAbs * 2 ^ j := by
  rw [← dist_scale]
  congr 1
  push_cast
  ring

/-- Below the exact value, the lesser of two values is further away. -/
theorem dist_lt_of_lt {u p n d : Nat} (hd : 0 < d) (hu : u < p) (hp : p * d ≤ n) :
    ((p : Int) * d - n).natAbs < ((u : Int) * d - n).natAbs := by
  have h : u * d < p * d := Nat.mul_lt_mul_of_pos_right hu hd
  zify at h hp
  omega

/-! ### Rounding at a shift -/

/-- No other pattern is nearer than the rounded integer at the shift `j`, which is even where another one is equally near.
Either the other pattern's value is a multiple of `2 ^ j`, or it lies below all values with the step `j`. -/
theorem dist_pattern_le {f : FloatFmt} {n d j m' : Nat} (hd : 0 < d) (hhi : n ≤ 2 * 2 ^ (f.prec - 1) * d)
    (hlo : j = 0 ∨ 2 ^ (f.prec - 1) * d ≤ n) (hne : m' ≠ j * 2 ^ (f.prec - 1) + roundHalfEven n d) :
    (((roundHalfEven n d * 2 ^ j : Nat) : Int) * d - (n * 2 ^ j : Nat)).natAbs ≤
        ((f.units m' : Int) * d - (n * 2 ^ j : Nat)).natAbs ∧
      ((((roundHalfEven n d * 2 ^ j : Nat) : Int) * d - (n * 2 ^ j : Nat)).natAbs =
        ((f.units m' : Int) * d - (n * 2 ^ j : Nat)).natAbs → roundHalfEven n d % 2 = 0) := by
  have hT : 0 < 2 ^ j := by positivity
  by_cases hm : j = 0 ∨ (j + 1) * 2 ^ (f.prec - 1) ≤ m'
  · obtain ⟨k, hk⟩ := units_eq_mul_two_pow hm
    have hkM : k ≠ roundHalfEven n d := by
      rintro rfl
      refine hne ((units_strictMono f).injective (hk.trans (units_pattern ?_ ?_).symm))
      · exact roundHalfEven_le hd hhi
      · exact hlo.imp_right (le_roundHalfEven hd)
    rw [hk, dist_mul_two_pow, dist_mul_two_pow, Nat.mul_le_mul_right_iff hT, Nat.mul_left_inj hT.ne']
    exact roundHalfEven_dist hd hkM
  · have hP : 2 ^ (f.prec - 1) * d ≤ n := by omega
    have hle : ((roundHalfEven n d : Int) * d - n).natAbs ≤ (((2 ^ (f.prec - 1) : Nat) : Int) * d - n).natAbs := by
      by_cases h : 2 ^ (f.prec - 1) = roundHalfEven n d
      · rw [h]
      · exact (roundHalfEven_dist hd h).1
    have hle' := Nat.mul_le_mul_right (2 ^ j) hle
    rw [← dist_mul_two_pow, ← dist_mul_two_pow] at hle'
    have hlt := hle'.trans_lt (dist_lt_of_lt hd (units_lt_of_lt (f := f) (m := m') (by omega))
      (by rw [Nat.mul_right_comm]; exact Nat.mul_le_mul_right _ hP))
    exact ⟨hlt.le, fun h => absurd h hlt.ne⟩

/-- The pattern of the rounded integer at the shift `j` is nearest, ties to even, where `n / d` has at most `prec` bits, and
exactly as many where `j` is not 0. -/
theorem rounds_pattern {f : FloatFmt} (hf : 2 ≤ f.prec) {n d j : Nat} (hd : 0 < d) (hhi : n ≤ 2 * 2 ^ (f.prec - 1) * d)
    (hlo : j = 0 ∨ 2 ^ (f.prec - 1) * d ≤ n) (hfin : j * 2 ^ (f.prec - 1) + roundHalfEven n d < f.infinity) :
    Rounds f (n * 2 ^ j) d (j * 2 ^ (f.prec - 1) + roundHalfEven n d) := by
  have hu : f.units (j * 2 ^ (f.prec - 1) + roundHalfEven n d) = roundHalfEven n d * 2 ^ j :=
    units_pattern (roundHalfEven_le hd hhi) (hlo.imp_right (le_roundHalfEven hd))
  refine ⟨⟨hfin, fun m' _ => ?_⟩, fun m' _ hne h => ?_⟩
  · rw [hu]
    by_cases hne : m' = j * 2 ^ (f.prec - 1) + roundHalfEven n d
    · rw [hne, hu]
    · exact (dist_pattern_le hd hhi hlo hne).1
  · rw [hu] at h
    have hM := (dist_pattern_le hd hhi hlo hne).2 h
    obtain ⟨q, hq⟩ : ∃ q, f.prec - 1 = q + 1 := ⟨f.prec - 2, by omega⟩
    rw [hq, pow_succ, ← Nat.mul_assoc, Nat.add_mod, Nat.mul_mod_left, hM]

/-! ### The shift of `roundMag` -/

theorem le_of_mul_two_pow_le {n d a b a' b' : Nat} (h : a' + b ≤ a + b') (hle : d * 2 ^ a ≤ n * 2 ^ b) :
    d * 2 ^ a' ≤ n * 2 ^ b' := by
  refine Nat.le_of_mul_le_mul_right (c := 2 ^ b) ?_ (by positivity)
  calc d * 2 ^ a' * 2 ^ b = d * 2 ^ (a' + b) := by rw [Nat.mul_assoc, pow_add]
    _ ≤ d * 2 ^ (a + b') := Nat.mul_le_mul_left d (Nat.pow_le_pow_right (by omega) h)
    _ = d * 2 ^ a * 2 ^ b' := by rw [pow_add, Nat.mul_assoc]
    _ ≤ n * 2 ^ b * 2 ^ b' := Nat.mul_le_mul_right _ hle
    _ = n * 2 ^ b' * 2 ^ b := by ring

/-- At the shift, `n / d * 2 ^ e` has at most `prec` bits. -/
theorem roundShift_hi (f : FloatFmt) {n d : Nat} (e : Int) (hn : 0 < n) (hd : 0 < d) :
    n * 2 ^ (e - roundShift f n d e).toNat ≤ 2 * 2 ^ (f.prec - 1) * (d * 2 ^ ((roundShift f n d e : Int) - e).toNat) := by
  have hb := (floorLog2_bounds hn hd).2.le
  rw [show 2 * (d * 2 ^ (floorLog2 n d).toNat) = d * 2 ^ ((floorLog2 n d).toNat + 1) by ring] at hb
  rw [show ∀ s, 2 * 2 ^ (f.prec - 1) * (d * 2 ^ s) = d * 2 ^ (f.prec - 1 + 1 + s) from fun s => by ring]
  refine le_of_mul_two_pow_le ?_ hb
  unfold roundShift
  omega

/-- At a shift that is not 0, `n / d * 2 ^ e` has at least `prec` bits. -/
theorem roundShift_lo (f : FloatFmt) {n d : Nat} (e : Int) (hn : 0 < n) (hd : 0 < d) :
    roundShift f n d e = 0 ∨
      2 ^ (f.prec - 1) * (d * 2 ^ ((roundShift f n d e : Int) - e).toNat) ≤ n * 2 ^ (e - roundShift f n d e).toNat := by
  refine or_iff_not_imp_left.mpr fun hs => ?_
  rw [show ∀ s, 2 ^ (f.prec - 1) * (d * 2 ^ s) = d * 2 ^ (f.prec - 1 + s) from fun s => by ring]
  refine le_of_mul_two_pow_le ?_ (floorLog2_bounds hn hd).1
  unfold roundShift at hs ⊢
  omega

theorem roundMag_of_pos (f : FloatFmt) {n : Nat} (d : Nat) (e : Int) (hn : 0 < n) :
    roundMag f n d e = min f.infinity (roundShift f n d e * 2 ^ (f.prec - 1) +
      roundHalfEven (n * 2 ^ (e - roundShift f n d e).toNat) (d * 2 ^ ((roundShift f n d e : Int) - e).toNat)) := by
  simp [roundMag, hn.ne']

/-- A finite rounding is round to nearest, ties to even. -/
theorem roundMag_rounds {f : FloatFmt} (hf : 2 ≤ f.prec) {n d : Nat} {e : Int} (hd : 0 < d)
    (hfin : roundMag f n d e < f.infinity) :
    Rounds f (n * 2 ^ e.toNat) (d * 2 ^ (-e).toNat) (roundMag f n d e) := by
  rcases Nat.eq_zero_or_pos n with rfl | hn
  · exact ⟨⟨hfin, fun m' _ => by simp⟩, fun _ _ _ _ => rfl⟩
  · have hD : 0 < d * 2 ^ ((roundShift f n d e : Int) - e).toNat := by positivity
    rw [roundMag_of_pos f d e hn] at hfin ⊢
    have hX := (min_lt_iff.mp hfin).resolve_left (lt_irrefl _)
    rw [min_eq_right hX.le]
    refine rounds_of_ratio hD (by positivity) ?_ (rounds_pattern hf hD (roundShift_hi f e hn hd) (roundShift_lo f e hn hd) hX)
    have hexp : (e - roundShift f n d e).toNat + roundShift f n d e + (-e).toNat =
        e.toNat + ((roundShift f n d e : Int) - e).toNat := by omega
    calc n * 2 ^ (e - roundShift f n d e).toNat * 2 ^ roundShift f n d e * (d * 2 ^ (-e).toNat)
        = n * d * 2 ^ ((e - roundShift f n d e).toNat + roundShift f n d e + (-e).toNat) := by rw [pow_add, pow_add]; ring
      _ = n * 2 ^ e.toNat * (d * 2 ^ ((roundShift f n d e : Int) - e).toNat) := by rw [hexp, pow_add]; ring

/-- Settles O31: at its shift, `roundMag` rounds to an integer of at most `prec` bits, half to even. -/
theorem roundingIsNearestEven : Obligations.RoundingIsNearestEven := by
  unfold Obligations.RoundingIsNearestEven
  intro f hf n d e hd hfin
  have hprec : 2 ≤ f.prec := by rcases hf with rfl | rfl <;> decide
  exact roundMag_rounds hprec hd hfin

/-! ### Which roundings stay finite -/

/-- The formats of the model are big enough for what follows. -/
structure FmtWf (f : FloatFmt) : Prop where
  prec : 2 ≤ f.prec
  expBits : 4 ≤ 2 ^ f.expBits

theorem fmtWf_fmt64 : FmtWf fmt64 := ⟨by decide, by decide⟩

theorem fmtWf_fmt32 : FmtWf fmt32 := ⟨by decide, by decide⟩

theorem lt_infinity_of_le {f : FloatFmt} {j M m : Nat} (hm : m ≤ j * 2 ^ (f.prec - 1) + M) (hM : M ≤ 2 * 2 ^ (f.prec - 1))
    (hj : j + 4 ≤ 2 ^ f.expBits) : m < f.infinity := by
  have hP : 0 < 2 ^ (f.prec - 1) := by positivity
  calc m ≤ (j + 2) * 2 ^ (f.prec - 1) := by rw [Nat.add_mul]; omega
    _ < (2 ^ f.expBits - 1) * 2 ^ (f.prec - 1) := Nat.mul_lt_mul_of_pos_right (by omega) hP

/-- The shift of a value below `2 ^ K`. -/
theorem roundShift_le {f : FloatFmt} {n d K : Nat} {e : Int} (hn : 0 < n) (hd : 0 < d)
    (hK : n * 2 ^ e.toNat < 2 ^ K * (d * 2 ^ (-e).toNat)) : roundShift f n d e ≤ K - f.prec := by
  by_contra hs
  have hle : d * 2 ^ (K + (-e).toNat) ≤ n * 2 ^ e.toNat := by
    refine le_of_mul_two_pow_le ?_ (floorLog2_bounds hn hd).1
    unfold roundShift at hs
    omega
  rw [show 2 ^ K * (d * 2 ^ (-e).toNat) = d * 2 ^ (K + (-e).toNat) by rw [pow_add]; ring] at hK
  omega

/-- A value below `2 ^ K` is rounded to a finite one, for `K` up to 2097 in binary64 and 276 in binary32. -/
theorem roundMag_lt_infinity {f : FloatFmt} (hf : FmtWf f) {n d K : Nat} {e : Int} (hd : 0 < d)
    (hf' : K + 4 ≤ 2 ^ f.expBits + f.prec) (hK : n * 2 ^ e.toNat < 2 ^ K * (d * 2 ^ (-e).toNat)) :
    roundMag f n d e < f.infinity := by
  have hexp := hf.expBits
  rcases Nat.eq_zero_or_pos n with rfl | hn
  · exact lt_infinity_of_le (j := 0) (M := 0) (by simp) (by omega) (by omega)
  · rw [roundMag_of_pos f d e hn]
    have hs := roundShift_le (f := f) hn hd hK
    exact lt_infinity_of_le (min_le_right _ _) (roundHalfEven_le (by positivity) (roundShift_hi f e hn hd)) (by omega)

/-- The rounding of the model for the exact value `N / D`. -/
theorem roundMag_rounds_ratio {f : FloatFmt} (hf : FmtWf f) {n d N D K : Nat} {e : Int} (hd : 0 < d) (hD : 0 < D)
    (hr : n * 2 ^ e.toNat * D = N * (d * 2 ^ (-e).toNat)) (hf' : K + 4 ≤ 2 ^ f.expBits + f.prec) (hN : N < 2 ^ K * D) :
    Rounds f N D (roundMag f n d e) := by
  have hd' : 0 < d * 2 ^ (-e).toNat := by positivity
  refine rounds_of_ratio hd' hD hr (roundMag_rounds hf.prec hd (roundMag_lt_infinity hf hd hf' ?_))
  refine Nat.lt_of_mul_lt_mul_right (a := D) ?_
  calc n * 2 ^ e.toNat * D = N * (d * 2 ^ (-e).toNat) := hr
    _ < 2 ^ K * D * (d * 2 ^ (-e).toNat) := Nat.mul_lt_mul_of_pos_right hN hd'
    _ = 2 ^ K * (d * 2 ^ (-e).toNat) * D := by ring

/-! ### What a rounding keeps -/

/-- Rounding keeps an upper bound that the format holds. -/
theorem units_le_of_rounds {f : FloatFmt} {n d m b : Nat} (h : Rounds f n d m) (hd : 0 < d) (hb : b < f.infinity)
    (hn : n ≤ f.units b * d) : f.units m ≤ f.units b := by
  have hnear := h.1.2 b hb
  refine Nat.le_of_mul_le_mul_right ?_ hd
  zify at hn ⊢
  omega

/-- Rounding keeps a lower bound that the format holds. -/
theorem le_units_of_rounds {f : FloatFmt} {n d m b : Nat} (h : Rounds f n d m) (hd : 0 < d) (hb : b < f.infinity)
    (hn : f.units b * d ≤ n) : f.units b ≤ f.units m := by
  have hnear := h.1.2 b hb
  refine Nat.le_of_mul_le_mul_right ?_ hd
  zify at hn ⊢
  omega

/-- The format holds `k * 2 ^ j` for an integer `k` of at most `prec` bits. -/
theorem exists_finite_units_eq {f : FloatFmt} {k j : Nat} (hk : k ≤ 2 * 2 ^ (f.prec - 1)) (hj : j + 4 ≤ 2 ^ f.expBits) :
    ∃ b, b < f.infinity ∧ f.units b = k * 2 ^ j := by
  obtain ⟨b, hb, hu⟩ := exists_units_eq f j hk
  exact ⟨b, lt_infinity_of_le hb hk hj, hu⟩

/-- Rounding is exact on the values of the format. -/
theorem units_eq_of_rounds {f : FloatFmt} {n d m k j : Nat} (h : Rounds f n d m) (hd : 0 < d)
    (hk : k ≤ 2 * 2 ^ (f.prec - 1)) (hj : j + 4 ≤ 2 ^ f.expBits) (hn : n = k * 2 ^ j * d) : f.units m = k * 2 ^ j := by
  obtain ⟨b, hb, hu⟩ := exists_finite_units_eq hk hj
  rw [← hu] at hn ⊢
  exact Nat.le_antisymm (units_le_of_rounds h hd hb hn.le) (le_units_of_rounds h hd hb hn.ge)

theorem exists_finite_units_eq_two_pow {f : FloatFmt} {j : Nat} (hj : j + 4 ≤ 2 ^ f.expBits) :
    ∃ b, b < f.infinity ∧ f.units b = 2 ^ j := by
  have hP : 0 < 2 ^ (f.prec - 1) := by positivity
  obtain ⟨b, hb, hu⟩ := exists_finite_units_eq (f := f) (k := 1) (by omega) hj
  exact ⟨b, hb, by rw [hu, one_mul]⟩

theorem units_le_two_pow_of_rounds {f : FloatFmt} {n d m j : Nat} (h : Rounds f n d m) (hd : 0 < d)
    (hj : j + 4 ≤ 2 ^ f.expBits) (hn : n ≤ 2 ^ j * d) : f.units m ≤ 2 ^ j := by
  obtain ⟨b, hb, hu⟩ := exists_finite_units_eq_two_pow hj
  rw [← hu] at hn ⊢
  exact units_le_of_rounds h hd hb hn

theorem two_pow_le_units_of_rounds {f : FloatFmt} {n d m j : Nat} (h : Rounds f n d m) (hd : 0 < d)
    (hj : j + 4 ≤ 2 ^ f.expBits) (hn : 2 ^ j * d ≤ n) : 2 ^ j ≤ f.units m := by
  obtain ⟨b, hb, hu⟩ := exists_finite_units_eq_two_pow hj
  rw [← hu] at hn ⊢
  exact le_units_of_rounds h hd hb hn

end Sys2Proof.Proofs
end

section
/-! PROOF. The floating-point operations are correctly rounded, and so are the results of Scale (45_scaling.md R211 to R213).
Values are in units of the least value of the format, as in `Rounds`. -/

open Sys2Proof Sys2Proof.Machine Sys2Proof.Certificates

namespace Sys2Proof.Proofs

/-! ### Bounds between powers of 2 -/

theorem mul_two_pow_lt {a i j K : Nat} (ha : a ≤ 2 ^ i) (hK : i + j < K) : a * 2 ^ j < 2 ^ K := by
  calc a * 2 ^ j ≤ 2 ^ i * 2 ^ j := Nat.mul_le_mul_right _ ha
    _ = 2 ^ (i + j) := (pow_add 2 i j).symm
    _ < 2 ^ K := Nat.pow_lt_pow_right (by omega) hK

theorem mul_two_pow_lt_mul {a i j K D : Nat} (ha : a ≤ 2 ^ i) (hK : i + j < K) (hD : 0 < D) : a * 2 ^ j < 2 ^ K * D :=
  (mul_two_pow_lt ha hK).trans_le (Nat.le_mul_of_pos_right _ hD)

theorem mul_two_pow_le {a i j K : Nat} (ha : a ≤ 2 ^ i) (hK : i + j ≤ K) : a * 2 ^ j ≤ 2 ^ K := by
  calc a * 2 ^ j ≤ 2 ^ i * 2 ^ j := Nat.mul_le_mul_right _ ha
    _ = 2 ^ (i + j) := (pow_add 2 i j).symm
    _ ≤ 2 ^ K := Nat.pow_le_pow_right (by omega) hK

theorem two_pow_lt {a b : Nat} (h : a < b) : 2 ^ a < 2 ^ b := Nat.pow_lt_pow_right (by decide) h

theorem two_pow_mul_le {a b c d : Nat} (h : a + b ≤ c + d) : 2 ^ a * 2 ^ b ≤ 2 ^ c * 2 ^ d := by
  rw [← pow_add, ← pow_add]
  exact Nat.pow_le_pow_right (by decide) h

/-! ### The operations -/

theorem scale_fmt64 : fmt64.scale = 1074 := rfl

theorem scale_fmt32 : fmt32.scale = 149 := rfl

theorem units_eq_sig_mul (f : FloatFmt) (m : Nat) : f.units m = f.sig m * 2 ^ f.exp m := rfl

theorem sig_le (f : FloatFmt) (m : Nat) : f.sig m ≤ 2 * 2 ^ (f.prec - 1) := by
  have hP : 0 < 2 ^ (f.prec - 1) := by positivity
  unfold FloatFmt.sig
  split
  · have := (Nat.div_eq_zero_iff_lt hP).mp ‹_›
    omega
  · have := Nat.mod_lt m hP
    omega

/-- A finite pattern's exponent. -/
theorem exp_le_of_lt_infinity {f : FloatFmt} {m : Nat} (h : m < f.infinity) : f.exp m ≤ 2 ^ f.expBits - 3 := by
  have := Nat.div_lt_of_lt_mul (h.trans_eq (Nat.mul_comm _ _))
  unfold FloatFmt.exp
  omega

theorem f64OfInt_rounds {i : Int} (hi : i.natAbs ≤ 2 ^ 64) :
    Rounds fmt64 (i.natAbs * 2 ^ fmt64.scale) 1 (f64OfInt i).mag :=
  roundMag_rounds_ratio fmtWf_fmt64 (K := 2097) (e := fmt64.scale) (by decide) (by decide)
    (by simp only [Int.toNat_natCast, Int.toNat_neg_natCast, pow_zero, Nat.mul_one]) (by decide)
    (mul_two_pow_lt_mul hi (by decide) (by decide))

theorem f64Const_rounds {num den : Nat} (hden : 0 < den) (hnum : num ≤ 2 ^ 64) :
    Rounds fmt64 (num * 2 ^ fmt64.scale) den (f64Const num den).mag :=
  roundMag_rounds_ratio fmtWf_fmt64 (K := 2097) (e := fmt64.scale) hden hden
    (by simp only [Int.toNat_natCast, Int.toNat_neg_natCast, pow_zero, Nat.mul_one]) (by decide)
    (mul_two_pow_lt_mul hnum (by decide) hden)

/-- `f64(i)` is exact where `i` has at most 53 bits. -/
theorem f64OfInt_units {i : Int} (hi : i.natAbs ≤ 2 ^ 53) : fmt64.units (f64OfInt i).mag = i.natAbs * 2 ^ fmt64.scale :=
  units_eq_of_rounds (f64OfInt_rounds (hi.trans (by decide))) (by decide) hi (by decide) (Nat.mul_one _).symm

/-- An integer constant is exact where it has at most 53 bits. -/
theorem f64Const_units {num : Nat} (hnum : num ≤ 2 ^ 53) : fmt64.units (f64Const num 1).mag = num * 2 ^ fmt64.scale :=
  units_eq_of_rounds (f64Const_rounds (by decide) (hnum.trans (by decide))) (by decide) hnum (by decide)
    (Nat.mul_one _).symm

theorem f64Div_rounds {x y : Flt} {N D : Nat} (hy : 0 < fmt64.units y.mag) (hD : 0 < D)
    (hr : fmt64.units x.mag * 2 ^ fmt64.scale * D = N * fmt64.units y.mag) (hN : N < 2 ^ 2097 * D) :
    Rounds fmt64 N D (f64Div x y).mag := by
  rw [units_eq_sig_mul] at hy
  refine roundMag_rounds_ratio fmtWf_fmt64 (Nat.pos_of_mul_pos_right hy) hD ?_ (by decide) hN
  rw [units_eq_sig_mul, units_eq_sig_mul] at hr
  set a := fmt64.exp x.mag
  set b := fmt64.exp y.mag
  set e : Int := (a : Int) - b + fmt64.scale
  have he : e.toNat + b = (-e).toNat + (a + fmt64.scale) := by omega
  refine Nat.eq_of_mul_eq_mul_right (by positivity : 0 < 2 ^ b) ?_
  calc fmt64.sig x.mag * 2 ^ e.toNat * D * 2 ^ b = fmt64.sig x.mag * D * 2 ^ (e.toNat + b) := by rw [pow_add]; ring
    _ = fmt64.sig x.mag * 2 ^ a * 2 ^ fmt64.scale * D * 2 ^ (-e).toNat := by rw [he, pow_add, pow_add]; ring
    _ = N * (fmt64.sig y.mag * 2 ^ (-e).toNat) * 2 ^ b := by rw [hr]; ring

theorem f64Mul_rounds {x y : Flt} (hN : fmt64.units x.mag * fmt64.units y.mag < 2 ^ 2097 * 2 ^ fmt64.scale) :
    Rounds fmt64 (fmt64.units x.mag * fmt64.units y.mag) (2 ^ fmt64.scale) (f64Mul x y).mag := by
  refine roundMag_rounds_ratio fmtWf_fmt64 (by decide) (by positivity) ?_ (by decide) hN
  rw [units_eq_sig_mul, units_eq_sig_mul]
  set a := fmt64.exp x.mag
  set b := fmt64.exp y.mag
  set e : Int := ((a + b : Nat) : Int) - (fmt64.scale : Int)
  have he : e.toNat + fmt64.scale = (-e).toNat + (a + b) := by omega
  calc fmt64.sig x.mag * fmt64.sig y.mag * 2 ^ e.toNat * 2 ^ fmt64.scale
      = fmt64.sig x.mag * fmt64.sig y.mag * 2 ^ (e.toNat + fmt64.scale) := by rw [pow_add]; ring
    _ = fmt64.sig x.mag * 2 ^ a * (fmt64.sig y.mag * 2 ^ b) * (1 * 2 ^ (-e).toNat) := by rw [he, pow_add, pow_add]; ring

theorem convert_rounds {f g : FloatFmt} (hg : FmtWf g) {x : Flt} {K : Nat} (hK : K + 4 ≤ 2 ^ g.expBits + g.prec)
    (hN : f.units x.mag * 2 ^ g.scale < 2 ^ K * 2 ^ f.scale) :
    Rounds g (f.units x.mag * 2 ^ g.scale) (2 ^ f.scale) (convert f g x).mag := by
  refine roundMag_rounds_ratio hg (by decide) (by positivity) ?_ hK hN
  rw [units_eq_sig_mul]
  set a := f.exp x.mag
  set e : Int := (a : Int) + g.scale - f.scale
  have he : e.toNat + f.scale = (-e).toNat + (a + g.scale) := by omega
  calc f.sig x.mag * 2 ^ e.toNat * 2 ^ f.scale = f.sig x.mag * 2 ^ (e.toNat + f.scale) := by rw [pow_add]; ring
    _ = f.sig x.mag * 2 ^ a * 2 ^ g.scale * (1 * 2 ^ (-e).toNat) := by rw [he, pow_add, pow_add]; ring

/-! ### Sums -/

/-- A finite value with its sign, in units of the least value; both zeros give 0. -/
def signedUnits (x : Flt) : Int := if x.neg then -(fmt64.units x.mag : Int) else fmt64.units x.mag

theorem natAbs_signedUnits (x : Flt) : (signedUnits x).natAbs = fmt64.units x.mag := by
  unfold signedUnits
  split
  · rw [Int.natAbs_neg, Int.natAbs_natCast]
  · rw [Int.natAbs_natCast]

theorem signedUnits_f64Const {num : Nat} (hnum : num ≤ 2 ^ 53) :
    signedUnits (f64Const num 1) = num * 2 ^ fmt64.scale := by
  have hneg : (f64Const num 1).neg = false := rfl
  rw [signedUnits, hneg, if_neg Bool.false_ne_true, f64Const_units hnum, Nat.cast_mul, Nat.cast_pow, Nat.cast_ofNat]

/-- Aligning an operand does not change its value. -/
theorem signedSig_mul {x : Flt} {e : Nat} (h : x.mag = 0 ∨ e ≤ fmt64.exp x.mag) : x.signedSig e * 2 ^ e = signedUnits x := by
  have hv : fmt64.sig x.mag * 2 ^ (fmt64.exp x.mag - e) * 2 ^ e = fmt64.units x.mag := by
    rcases h with h | h
    · rw [h]
      simp [FloatFmt.sig]
    · rw [Nat.mul_assoc, ← pow_add, Nat.sub_add_cancel h, units_eq_sig_mul]
  unfold Flt.signedSig signedUnits
  rw [← hv]
  cases x.neg <;> simp

/-- The exact sum, in units of the least value. -/
theorem alignedSum_mul (x y : Flt) :
    (x.signedSig (commonExp x y) + y.signedSig (commonExp x y)) * 2 ^ commonExp x y = signedUnits x + signedUnits y := by
  have hx : x.mag = 0 ∨ commonExp x y ≤ fmt64.exp x.mag := by unfold commonExp; split_ifs <;> simp_all
  have hy : y.mag = 0 ∨ commonExp x y ≤ fmt64.exp y.mag := by unfold commonExp; split_ifs <;> simp_all
  rw [add_mul, signedSig_mul hx, signedSig_mul hy]

theorem f64Add_rounds {x y : Flt} (hN : (signedUnits x + signedUnits y).natAbs < 2 ^ 2097) :
    Rounds fmt64 (signedUnits x + signedUnits y).natAbs 1 (f64Add x y).mag := by
  refine roundMag_rounds_ratio fmtWf_fmt64 (K := 2097) (by decide) (by decide) ?_ (by decide) (by rwa [Nat.mul_one])
  rw [← alignedSum_mul, Int.natAbs_mul]
  simp [Int.natAbs_pow]

theorem f64Add_neg {x y : Flt} (hy : y.neg = false) : (f64Add x y).neg = decide (signedUnits x + signedUnits y < 0) := by
  have hp : (0 : Int) < 2 ^ commonExp x y := by positivity
  unfold f64Add
  rw [← alignedSum_mul]
  generalize x.signedSig (commonExp x y) + y.signedSig (commonExp x y) = s
  by_cases h : s = 0
  · simp [h, hy]
  · simp [h, mul_neg_iff, hp, not_lt.mpr hp.le]

/-! ### Narrowing and widening -/

/-- A value in units of binary64 that binary32 holds as a finite one. -/
theorem narrow_bound {u j : Nat} (hu : u ≤ 2 ^ j) (hj : j ≤ 1200) :
    u * 2 ^ fmt32.scale < 2 ^ 276 * 2 ^ fmt64.scale := by
  rw [← pow_add]
  exact mul_two_pow_lt hu (by rw [scale_fmt64, scale_fmt32]; omega)

theorem narrowFlt_narrowsTo {fmt : ResultFmt} {x : Flt} {j : Nat} (hx : fmt64.units x.mag ≤ 2 ^ j) (hj : j ≤ 1200) :
    NarrowsTo x.neg x.mag fmt (narrowFlt fmt x) := by
  cases fmt with
  | binary64 => rfl
  | binary32 =>
    refine ⟨_, convert_rounds (K := 276) fmtWf_fmt32 (by decide) ?_, rfl⟩
    exact narrow_bound hx hj

theorem unpackFlt_packFlt {w : Nat} (hw : 0 < w) {x : Flt} (hx : x.mag < 2 ^ (w - 1)) : unpackFlt (packFlt w x) = x := by
  obtain ⟨v, rfl⟩ : ∃ v, w = v + 1 := ⟨w - 1, by omega⟩
  obtain ⟨neg, mag⟩ := x
  simp only [Nat.add_sub_cancel] at hx
  have hlt : (if neg then 2 ^ v else 0) + mag < 2 ^ (v + 1) := by rw [pow_succ]; split <;> omega
  unfold unpackFlt packFlt
  simp only [BitVec.msb_eq_decide, BitVec.toNat_ofNat, Nat.add_sub_cancel, Nat.mod_eq_of_lt hlt]
  cases neg <;> simp [Nat.mod_eq_of_lt hx, hx]

/-- A binary32 value widened is exactly that value (R16). -/
theorem convert_widens (y : Flt) (hy : y.mag < 2 ^ 31) :
    Finite fmt64 (convert fmt32 fmt64 y) ∧
      fmt64.units (convert fmt32 fmt64 y).mag * 2 ^ fmt32.scale = fmt32.units y.mag * 2 ^ fmt64.scale := by
  have hexp : fmt32.exp y.mag ≤ 255 := by
    change y.mag / 2 ^ 23 - 1 ≤ 255
    omega
  have hsig := sig_le fmt32 y.mag
  have hr := convert_rounds (f := fmt32) (K := 2097) fmtWf_fmt64 (x := y) (by decide) (by
    rw [units_eq_sig_mul, Nat.mul_assoc, ← pow_add]
    exact mul_two_pow_lt_mul (i := 24) hsig (by rw [scale_fmt64]; omega) (by positivity))
  have hN : fmt32.units y.mag * 2 ^ fmt64.scale = fmt32.sig y.mag * 2 ^ (fmt32.exp y.mag + 925) * 2 ^ fmt32.scale := by
    rw [units_eq_sig_mul, show fmt64.scale = 925 + fmt32.scale from rfl, pow_add, pow_add]
    simp only [Nat.mul_assoc]
  have hu := units_eq_of_rounds hr (by positivity) (hsig.trans (by decide))
    (by have : 2 ^ fmt64.expBits = 2048 := rfl
        omega) hN
  exact ⟨hr.1.1, by rw [hu, hN]⟩

theorem widenFlt_widensTo (c : FloatVal) : WidensTo (widenFlt c) c := by
  cases c with
  | binary64 b => rfl
  | binary32 b => exact ⟨rfl, convert_widens (unpackFlt b) (Nat.mod_lt _ (by decide))⟩

/-- Narrowing and widening keep a bound. -/
theorem units_widenFlt_narrowFlt_le {fmt : ResultFmt} {x : Flt} (hfin : Finite fmt64 x) (hx : fmt64.units x.mag ≤ 2 ^ 1100) :
    fmt64.units (widenFlt (narrowFlt fmt x)).mag ≤ 2 ^ 1100 := by
  cases fmt with
  | binary64 =>
    have hm : x.mag < 2 ^ (64 - 1) := hfin.trans (by decide)
    rw [show widenFlt (narrowFlt .binary64 x) = unpackFlt (packFlt 64 x) from rfl, unpackFlt_packFlt (by decide) hm]
    exact hx
  | binary32 =>
    have hr := convert_rounds (g := fmt32) (f := fmt64) (x := x) (K := 276) fmtWf_fmt32 (by decide)
      (narrow_bound hx (by decide))
    have hm : (convert fmt64 fmt32 x).mag < 2 ^ (32 - 1) := hr.1.1.trans (by decide)
    have hle := units_le_two_pow_of_rounds (j := 175) hr (by positivity) (by decide) (by
      rw [← pow_add]
      exact mul_two_pow_le hx (by decide))
    rw [show widenFlt (narrowFlt .binary32 x) = convert fmt32 fmt64 (unpackFlt (packFlt 32 (convert fmt64 fmt32 x))) from rfl,
      unpackFlt_packFlt (by decide) hm]
    refine Nat.le_of_mul_le_mul_right (c := 2 ^ fmt32.scale) ?_ (by positivity)
    rw [(convert_widens _ (hm.trans_le (by decide))).2, ← pow_add]
    exact mul_two_pow_le hle (by decide)

/-! ### TEMP_C and TEMP_F -/

/-- `f64(t) ⊘ K(100.0)` is t/100 rounded once: both operands are exact. -/
theorem f64Div_hundred_rounds {t : Int} (ht : t.natAbs ≤ 2 ^ 15) :
    Rounds fmt64 (t.natAbs * 2 ^ fmt64.scale) 100 (f64Div (f64OfInt t) (f64Const 100 1)).mag := by
  have hc : fmt64.units (f64Const 100 1).mag = 100 * 2 ^ fmt64.scale := f64Const_units (by decide)
  have hi : fmt64.units (f64OfInt t).mag = t.natAbs * 2 ^ fmt64.scale := f64OfInt_units (ht.trans (by decide))
  refine f64Div_rounds (by rw [hc]; positivity) (by decide) ?_ (mul_two_pow_lt_mul ht (by decide) (by decide))
  rw [hc, hi]
  ring

theorem f64Div_neg_of_pos {x y : Flt} (hy : y.neg = false) : (f64Div x y).neg = x.neg := by simp [f64Div, hy]

theorem f64Mul_neg_of_pos {x y : Flt} (hy : y.neg = false) : (f64Mul x y).neg = x.neg := by simp [f64Mul, hy]

theorem tempC_units_le {t : Int} (ht : t.natAbs ≤ 2 ^ 15) :
    fmt64.units (f64Div (f64OfInt t) (f64Const 100 1)).mag ≤ 2 ^ 1100 :=
  units_le_two_pow_of_rounds (f64Div_hundred_rounds ht) (by decide) (by decide)
    ((mul_two_pow_le ht (by decide)).trans (Nat.le_mul_of_pos_right _ (by decide)))

theorem scaleTempC_narrowsTo {fmt : ResultFmt} {t : Int} (ht : t.natAbs ≤ 2 ^ 15) :
    NarrowsTo (decide (t < 0)) (f64Div (f64OfInt t) (f64Const 100 1)).mag fmt (scaleTempC fmt t) := by
  have h := narrowFlt_narrowsTo (fmt := fmt) (tempC_units_le ht) (by decide)
  rwa [f64Div_neg_of_pos rfl] at h

/-- TEMP_F for the exact value `x` of TEMP_C (R212): a rounded product, a rounded sum, narrowed. -/
theorem scaleTempF_rounds {fmt : ResultFmt} {x : Flt} (hx : fmt64.units x.mag ≤ 2 ^ 1100) :
    ∃ k p q, Rounds fmt64 (18 * 2 ^ fmt64.scale) 10 k ∧
      Rounds fmt64 (fmt64.units x.mag * fmt64.units k) (2 ^ fmt64.scale) p ∧
      let sum : Int := (if x.neg then -(fmt64.units p : Int) else fmt64.units p) + 32 * 2 ^ fmt64.scale
      Rounds fmt64 sum.natAbs 1 q ∧
        NarrowsTo (decide (sum < 0)) q fmt (narrowFlt fmt (f64Add (f64Mul x (f64Const 18 10)) (f64Const 32 1))) := by
  have hk : Rounds fmt64 (18 * 2 ^ fmt64.scale) 10 (f64Const 18 10).mag := f64Const_rounds (by decide) (by decide)
  have hk' : fmt64.units (f64Const 18 10).mag ≤ 2 ^ 1079 := units_le_two_pow_of_rounds hk (by decide) (by decide)
    ((mul_two_pow_le (i := 5) (by decide) (by decide)).trans (Nat.le_mul_of_pos_right _ (by decide)))
  have hprod : fmt64.units x.mag * fmt64.units (f64Const 18 10).mag ≤ 2 ^ 1105 * 2 ^ fmt64.scale :=
    (Nat.mul_le_mul hx hk').trans (two_pow_mul_le (by decide))
  have hp : Rounds fmt64 _ _ (f64Mul x (f64Const 18 10)).mag :=
    f64Mul_rounds (hprod.trans_lt (Nat.mul_lt_mul_of_pos_right (two_pow_lt (by decide)) (by positivity)))
  have hp' := units_le_two_pow_of_rounds hp (by positivity) (by decide) hprod
  have hsum : signedUnits (f64Mul x (f64Const 18 10)) + signedUnits (f64Const 32 1) =
      (if x.neg then -(fmt64.units (f64Mul x (f64Const 18 10)).mag : Int) else fmt64.units (f64Mul x (f64Const 18 10)).mag) +
        32 * 2 ^ fmt64.scale := by
    rw [signedUnits_f64Const (by decide), signedUnits, f64Mul_neg_of_pos rfl, Nat.cast_ofNat]
  have hS : (signedUnits (f64Mul x (f64Const 18 10)) + signedUnits (f64Const 32 1)).natAbs ≤ 2 ^ 1106 := by
    refine (Int.natAbs_add_le _ _).trans ?_
    rw [natAbs_signedUnits, natAbs_signedUnits, f64Const_units (by decide), pow_succ 2 1105, Nat.mul_two]
    exact Nat.add_le_add hp' (mul_two_pow_le (i := 5) (by decide) (by decide))
  refine ⟨_, _, (f64Add (f64Mul x (f64Const 18 10)) (f64Const 32 1)).mag, hk, hp, ?_⟩
  rw [← hsum]
  have hq := f64Add_rounds (hS.trans_lt (two_pow_lt (by decide)))
  refine ⟨hq, ?_⟩
  rw [← f64Add_neg rfl]
  exact narrowFlt_narrowsTo (units_le_two_pow_of_rounds (j := 1106) hq (by decide) (by decide) (by rwa [Nat.mul_one])) (by decide)

/-- Settles O32: TEMP_C is a quotient of exact operands; its register widens to a value small enough for TEMP_F's product and
sum to stay finite. -/
theorem tempCCorrectlyRounded : Obligations.TempCCorrectlyRounded := by
  unfold Obligations.TempCCorrectlyRounded
  intro fmt t hlo hhi
  have ht : t.natAbs ≤ 2 ^ 15 := by omega
  have hm := f64Div_hundred_rounds ht
  have hx : fmt64.units (widenFlt (scaleTempC fmt t)).mag ≤ 2 ^ 1100 :=
    units_widenFlt_narrowFlt_le hm.1.1 (tempC_units_le ht)
  obtain ⟨k, p, q, hk, hp, hsum⟩ := scaleTempF_rounds (fmt := fmt) hx
  exact ⟨⟨_, hm, scaleTempC_narrowsTo ht⟩, _, k, p, q, widenFlt_widensTo _, hk, hp, hsum⟩

/-! ### PRESS_HPA -/

/-- `f64(p)` is a multiple of 256 least values with at most 53 significant bits, so its quotient by 256 is exact. -/
theorem f64OfInt_units_eq_mul_256 {p : Int} (hp : p.natAbs ≤ 2 ^ 63) :
    ∃ k j, k ≤ 2 ^ 53 ∧ j + 4 ≤ 2 ^ fmt64.expBits ∧ fmt64.units (f64OfInt p).mag = 256 * (k * 2 ^ j) := by
  have hr := f64OfInt_rounds (hp.trans (by decide))
  rcases Nat.eq_zero_or_pos p.natAbs with h0 | hpos
  · exact ⟨0, 0, by decide, by decide, by rw [Int.natAbs_eq_zero.mp h0]; rfl⟩
  · have hlow := two_pow_le_units_of_rounds (j := fmt64.scale) hr (by decide) (by decide)
      (by rw [Nat.mul_one]; exact Nat.le_mul_of_pos_left _ hpos)
    have hsig := sig_le fmt64 (f64OfInt p).mag
    have hexp : 8 ≤ fmt64.exp (f64OfInt p).mag := by
      by_contra h
      rw [units_eq_sig_mul] at hlow
      exact absurd (mul_two_pow_lt (i := 53) hsig (by rw [scale_fmt64]; omega)) hlow.not_gt
    have hfin := exp_le_of_lt_infinity hr.1.1
    refine ⟨fmt64.sig (f64OfInt p).mag, fmt64.exp (f64OfInt p).mag - 8, hsig, ?_, ?_⟩
    · omega
    · rw [units_eq_sig_mul, Nat.mul_left_comm, show 256 = 2 ^ 8 from rfl, ← pow_add, Nat.add_sub_cancel' hexp]

theorem f64OfInt_units_le {p : Int} (hp : p.natAbs ≤ 2 ^ 63) : fmt64.units (f64OfInt p).mag ≤ 2 ^ 1137 :=
  units_le_two_pow_of_rounds (f64OfInt_rounds (hp.trans (by decide))) (by decide) (by decide)
    (by rw [Nat.mul_one]; exact mul_two_pow_le hp (by decide))

/-- The two quotients are one rounding of the quotient by 25600. -/
theorem f64Div_25600_rounds {p : Int} (hp : p.natAbs ≤ 2 ^ 63) :
    Rounds fmt64 (fmt64.units (f64OfInt p).mag) 25600
      (f64Div (f64Div (f64OfInt p) (f64Const 256 1)) (f64Const 100 1)).mag := by
  have h256 : fmt64.units (f64Const 256 1).mag = 256 * 2 ^ fmt64.scale := f64Const_units (by decide)
  have h100 : fmt64.units (f64Const 100 1).mag = 100 * 2 ^ fmt64.scale := f64Const_units (by decide)
  have hle := f64OfInt_units_le hp
  have hlt : 2 ^ 1137 < 2 ^ 2097 := two_pow_lt (by decide)
  obtain ⟨k, j, hk, hj, hu⟩ := f64OfInt_units_eq_mul_256 hp
  have hfirst : Rounds fmt64 (k * 2 ^ j) 1 (f64Div (f64OfInt p) (f64Const 256 1)).mag := by
    refine f64Div_rounds (by rw [h256]; positivity) (by decide) (by rw [h256, hu]; ring) ?_
    rw [Nat.mul_one]
    exact (Nat.le_mul_of_pos_left _ (by decide)).trans_lt (hu ▸ hle.trans_lt hlt)
  have hexact := units_eq_of_rounds hfirst (by decide) hk hj (Nat.mul_one _).symm
  refine f64Div_rounds (by rw [h100]; positivity) (by decide) (by rw [h100, hexact, hu]; ring) ?_
  exact (hle.trans_lt hlt).trans_le (Nat.le_mul_of_pos_right _ (by decide))

theorem scalePress_narrowsTo {fmt : ResultFmt} {p : Int} (hp : p.natAbs ≤ 2 ^ 63) :
    NarrowsTo (decide (p < 0)) (f64Div (f64Div (f64OfInt p) (f64Const 256 1)) (f64Const 100 1)).mag fmt (scalePress fmt p) := by
  have hle := units_le_two_pow_of_rounds (j := 1137) (f64Div_25600_rounds hp) (by decide) (by decide)
    ((f64OfInt_units_le hp).trans (Nat.le_mul_of_pos_right _ (by decide)))
  have h := narrowFlt_narrowsTo (fmt := fmt) hle (by decide)
  rwa [f64Div_neg_of_pos rfl, f64Div_neg_of_pos rfl] at h

/-- Settles O33: the first quotient is exact, so the second is the only rounding after that of `f64(p)`. -/
theorem pressHpaCorrectlyRounded : Obligations.PressHpaCorrectlyRounded := by
  unfold Obligations.PressHpaCorrectlyRounded
  refine ⟨fun fmt p hlo hhi => ?_, by decide, by decide⟩
  have hp : p.natAbs ≤ 2 ^ 63 := by omega
  exact ⟨_, _, f64OfInt_rounds (hp.trans (by decide)), f64OfInt_units, f64Div_25600_rounds hp, scalePress_narrowsTo hp⟩

end Sys2Proof.Proofs
end

section
/-! PROOF. The state of the CDP (10_state.md): the values its registers hold and their widths (R24, R25), the invariant of the
registers (R22, R27, R32) and that only commands and the platform's reset write them (R30), and the ports (R28). -/

open Sys2Proof Sys2Proof.Machine Sys2Proof.Certificates

namespace Sys2Proof.Proofs

/-! ### The values the evaluators answer -/

theorem toInt_ofInt_of_inWidth {w : Nat} (hw : 0 < w) {v : Int} (h : InWidth w v) : (BitVec.ofInt w v).toInt = v := by
  rw [← wrap_eq_toInt hw, wrap_of_inWidth hw h]

/-- The last operation of CompT's `tf` is an addition of width 32 (R150). -/
theorem fineTemperature_inWidth {m : OvfMode} {adcT tf : Int} {k : Calib} (h : fineTemperature m adcT k = some tf) :
    InWidth 32 tf := by
  unfold fineTemperature at h
  simp only [Option.bind_eq_bind, Option.bind_eq_some_iff] at h
  obtain ⟨_, -, _, -, _, -, _, -, _, -, _, -, hadd⟩ := h
  exact (narrow_spec (by decide) hadd).1

/-- `t` is an s32 value shifted right by 8 (R150, R153). -/
theorem temperatureOf_inWidth {m : OvfMode} {tf t : Int} (h : temperatureOf m tf = some t) : InWidth 24 t := by
  unfold temperatureOf at h
  simp only [Option.bind_eq_bind, Option.bind_eq_some_iff] at h
  obtain ⟨_, -, v, hadd, ht⟩ := h
  cases ht
  exact asr_inWidth (w := 32) (n := 8) (by decide) (narrow_spec (by decide) hadd).1

theorem compT_parts {m : OvfMode} {adcT tf t : Int} {k : Calib} (h : compT m adcT k = some (tf, t)) :
    fineTemperature m adcT k = some tf ∧ temperatureOf m tf = some t := by
  obtain ⟨tf', hf, h⟩ := Option.bind_eq_some_iff.mp h
  obtain ⟨t', ht, h⟩ := Option.bind_eq_some_iff.mp h
  cases h
  exact ⟨hf, ht⟩

/-- The last operation of CompP is an addition of width 64 (R170). -/
theorem pressureQuotient_inWidth {m : OvfMode} {adcP den off p : Int} {k : Calib}
    (h : pressureQuotient m adcP den off k = some p) : InWidth 64 p := by
  unfold pressureQuotient at h
  simp only [Option.bind_eq_bind, Option.bind_eq_some_iff] at h
  obtain ⟨_, -, _, -, _, -, _, -, _, -, _, -, _, -, _, -, _, -, _, -, _, -, hadd⟩ := h
  exact (narrow_spec (by decide) hadd).1

/-- CompP answers 0 with the zero guard taken, or a quotient without it (R170, R171). -/
theorem compP_cases {m : OvfMode} {adcP tf p : Int} {z : Bool} {k : Calib} (h : compP m adcP tf k = some (p, z)) :
    (p = 0 ∧ z = true) ∨ (z = false ∧ ∃ den off, pressureQuotient m adcP den off k = some p) := by
  obtain ⟨off, -, h⟩ := Option.bind_eq_some_iff.mp h
  obtain ⟨den, -, h⟩ := Option.bind_eq_some_iff.mp h
  split at h
  · cases h
    exact .inl ⟨rfl, rfl⟩
  · obtain ⟨p', hp, h⟩ := Option.bind_eq_some_iff.mp h
    cases h
    exact .inr ⟨rfl, den, off, hp⟩

theorem compP_inWidth {m : OvfMode} {adcP tf p : Int} {z : Bool} {k : Calib} (h : compP m adcP tf k = some (p, z)) :
    InWidth 64 p := by
  rcases compP_cases h with ⟨rfl, -⟩ | ⟨-, den, off, hq⟩
  · exact ⟨by decide, by decide⟩
  · exact pressureQuotient_inWidth hq

/-- The clamps of CompH bound its result (R190, R191). -/
theorem compH_range {m : OvfMode} {adcH tf h : Int} {k : Calib} (hH : compH m adcH tf k = some h) : 0 ≤ h ∧ h ≤ 102400 := by
  obtain ⟨v, -, hH⟩ := Option.bind_eq_some_iff.mp hH
  cases hH
  rw [clampHumidity_eq, asr_eq]
  omega

theorem toNat_ofInt_humidity {h : Int} (hlo : 0 ≤ h) (hhi : h ≤ 102400) : ((BitVec.ofInt 32 h).toNat : Int) = h := by
  rw [BitVec.toNat_ofInt]
  omega

/-- Settles O30: the last operation of each evaluator has the width of its register, or a lesser range. -/
theorem resultRegistersHoldValues : Obligations.ResultRegistersHoldValues := by
  unfold Obligations.ResultRegistersHoldValues
  intro m adcT adcP adcH k tf t p h z hT hP hH
  obtain ⟨hf, ht⟩ := compT_parts hT
  have ht32 : InWidth 32 t := by
    obtain ⟨hlo, hhi⟩ := temperatureOf_inWidth ht
    constructor <;> omega
  obtain ⟨hlo, hhi⟩ := compH_range hH
  exact ⟨toInt_ofInt_of_inWidth (by decide) (fineTemperature_inWidth hf), toInt_ofInt_of_inWidth (by decide) ht32,
    toInt_ofInt_of_inWidth (by decide) (compP_inWidth hP), toNat_ofInt_humidity hlo hhi⟩

/-! ### The results of a MEASURE -/

theorem measureResults_hOut {par : Params} {k : Calib} {adcP adcT : BitVec 20} {adcH : BitVec 16} {r : Results}
    (h : measureResults par k adcP adcT adcH = some r) : r.hOut.toNat ≤ 102400 := by
  obtain ⟨tf, t, p, z, hh, -, -, hH, rfl⟩ := measureResults_some h
  obtain ⟨hlo, hhi⟩ := compH_range hH
  have hv : ((BitVec.ofInt 32 hh).toNat : Int) = hh := toNat_ofInt_humidity hlo hhi
  change (BitVec.ofInt 32 hh).toNat ≤ 102400
  omega

theorem scalePress_zero (fmt : ResultFmt) : scalePress fmt 0 = .binary64 0 ∨ scalePress fmt 0 = .binary32 0 := by
  obtain ⟨-, h64, h32⟩ := pressHpaCorrectlyRounded
  cases fmt with
  | binary64 => exact .inl h64
  | binary32 => exact .inr h32

/-- The zero guard shows as `p = 0`, which Scale turns into +0.0 (R27, R171, R213). -/
theorem measureResults_pZero {par : Params} {k : Calib} {adcP adcT : BitVec 20} {adcH : BitVec 16} {r : Results}
    (h : measureResults par k adcP adcT adcH = some r) (hz : r.pZero = true) :
    r.pOut = 0 ∧ (r.pressHpa = .binary64 0 ∨ r.pressHpa = .binary32 0) := by
  obtain ⟨tf, t, p, z, hh, -, hP, -, rfl⟩ := measureResults_some h
  rcases compP_cases hP with ⟨rfl, -⟩ | ⟨rfl, -⟩
  · exact ⟨rfl, scalePress_zero _⟩
  · cases hz

/-! ### The invariant of the registers, for each write of them -/

/-- The registers after reset: all ⊥, `STATUS` 0 (R290). -/
theorem cdpInv_reset (par : Params) : Cdp.reset.Inv par where
  availMirrorsCal := rfl
  validResultIsCurrent := fun h => by cases h
  zeroGuardShows := fun h => by cases h
  errKnown := (by decide : (0 : BitVec 3) ≤ 3)
  humidityInRange := fun _ h => by cases h

/-- Writing a known error code keeps the invariant. -/
theorem cdpInv_raiseErr {par : Params} {c : Cdp} (h : c.Inv par) {code : BitVec 3} (hcode : code ≤ 3) :
    (c.raiseErr code).Inv par where
  availMirrorsCal := h.availMirrorsCal
  validResultIsCurrent := h.validResultIsCurrent
  zeroGuardShows := h.zeroGuardShows
  errKnown := hcode
  humidityInRange := h.humidityInRange

/-- A write that leaves no valid result and touches neither the result registers nor `P_ZERO` keeps the invariant where it
keeps `AVAIL` and `CAL` together. -/
theorem cdpInv_of_not_resValid {par : Params} {c c' : Cdp} (h : c.Inv par) (hmirror : c'.availMirrorsCal)
    (hvalid : c'.status.resValid = false) (herr : c'.errKnown) (hz : c'.status.pZero = c.status.pZero)
    (hp : c'.pOut = c.pOut) (hpress : c'.pressHpa = c.pressHpa) (hh : c'.hOut = c.hOut) : c'.Inv par where
  availMirrorsCal := hmirror
  validResultIsCurrent := fun hv => by rw [hvalid] at hv; cases hv
  zeroGuardShows := fun hz' => by
    rw [hp, hpress]
    exact h.zeroGuardShows (hz ▸ hz')
  errKnown := herr
  humidityInRange := fun v hv => h.humidityInRange v (hh ▸ hv)

theorem cdpInv_failMeasure {par : Params} {c : Cdp} (h : c.Inv par) {code : BitVec 3} (hcode : code ≤ 3) :
    (c.failMeasure code).Inv par := cdpInv_of_not_resValid h h.availMirrorsCal rfl hcode rfl rfl rfl rfl

/-- A failed MEASURE may have latched the raw values: it leaves no valid result for them (R124). -/
theorem cdpInv_latch_failMeasure {par : Params} {c : Cdp} (h : c.Inv par) (r : Image 8) {code : BitVec 3} (hcode : code ≤ 3) :
    ((c.latch r).failMeasure code).Inv par := cdpInv_of_not_resValid h h.availMirrorsCal rfl hcode rfl rfl rfl rfl

theorem cdpInv_invalidate {par : Params} {c : Cdp} (h : c.Inv par) : c.invalidate.Inv par :=
  cdpInv_of_not_resValid h rfl rfl (by decide : errNone ≤ 3) rfl rfl rfl rfl

/-- CALLOAD loads while unavailable only, where no result is valid (R32, R100). -/
theorem cdpInv_loadCal {par : Params} {c : Cdp} (h : c.Inv par) (ha : c.status.avail = false) (k : Calib) :
    (c.loadCal k).Inv par := by
  have hvalid : c.status.resValid = false := by
    by_contra hv
    obtain ⟨hav, -⟩ := h.validResultIsCurrent (by simpa using hv)
    rw [ha] at hav
    cases hav
  exact cdpInv_of_not_resValid h rfl hvalid (by decide : errNone ≤ 3) rfl rfl rfl rfl

/-- A published result is the one of the latched raw values and of `CAL` (R121, R32). -/
theorem cdpInv_latch_publish {par : Params} {c : Cdp} {r : Image 8} {k : Calib} {res : Results} (h : c.Inv par)
    (ha : c.status.avail = true) (hk : c.cal = some k) (hs : isSentinel par (rawP r) (rawT r) (rawH r) = false)
    (hr : measureResults par k (rawP r) (rawT r) (rawH r) = some res) : ((c.latch r).publish res).Inv par where
  availMirrorsCal := h.availMirrorsCal
  validResultIsCurrent := fun _ =>
    ⟨ha, k, rawP r, rawT r, rawH r, res, hk, rfl, rfl, rfl, hs, hr, rfl, rfl, rfl, rfl, rfl, rfl, rfl, rfl, rfl⟩
  zeroGuardShows := fun hz => by
    obtain ⟨hp, hpress⟩ := measureResults_pZero hr hz
    refine ⟨fun v hv => ?_, fun v hv => ?_⟩ <;> cases hv
    · exact hp
    · exact hpress
  errKnown := (by decide : errNone ≤ 3)
  humidityInRange := fun v hv => by
    cases hv
    exact measureResults_hOut hr

/-! ### The invariant of the registers, for each command and each step -/

theorem execCalload_keeps_cdpInv {s t : State} (hs : s.cdp.Inv s.par) (h : execCalload s = .next t) : t.cdp.Inv s.par := by
  rcases execCalload_cases h with ⟨-, rfl⟩ | ⟨ha, rfl⟩
  · exact cdpInv_raiseErr hs (by decide)
  · exact cdpInv_loadCal hs ha _

theorem execMeasure_keeps_cdpInv {s t : State} (hs : s.cdp.Inv s.par) (h : execMeasure s = .next t) : t.cdp.Inv s.par := by
  rcases execMeasure_cases h with ⟨-, rfl⟩ | ⟨-, -, rfl⟩ | ⟨ha, hsent, k, res, hk, hr, rfl⟩ | ⟨-, -, -, rfl⟩
  · exact cdpInv_failMeasure hs (by decide)
  · exact cdpInv_latch_failMeasure hs _ (by decide)
  · exact cdpInv_latch_publish hs ha hk hsent hr
  · exact cdpInv_failMeasure hs (by decide)

theorem exec_keeps_cdpInv {i : Instr} {s t : State} (hs : s.cdp.Inv s.par) (h : exec i s = .next t) : t.cdp.Inv s.par := by
  cases i with
  | nop => cases h; exact hs
  | calload => exact execCalload_keeps_cdpInv hs h
  | measure => exact execMeasure_keeps_cdpInv hs h
  | inval => cases h; exact cdpInv_invalidate hs
  | reserved op => cases h; exact cdpInv_raiseErr hs (by decide)

/-- A step that is neither a command nor a reset of the platform is a driver step, which writes no register (R30, R230). -/
theorem step_cdp_cases {s t : State} (h : step s = .next t) :
    (∃ op, s.cmd = some op ∧ exec (decodeByte op) { s with cmd := none } = .next t) ∨
    (s.cmd = none ∧ s.nextTurn = .reset ∧ t.cdp = Cdp.reset) ∨
    (s.cmd = none ∧ t.cdp = s.cdp) := by
  rcases step_cases h with hx | ⟨hcmd, hturn, rfl⟩ | ⟨hcmd, call, ok, handle, bytes, -, rfl⟩
  · exact .inl hx
  · exact .inr (.inl ⟨hcmd, hturn, rfl⟩)
  · have hf := (DriverFrame.driverStep call ok handle bytes s.afterTurn).cdp
    exact .inr (.inr ⟨hcmd, by simpa using hf⟩)

/-- Settles O46: each command keeps the invariant, the reset registers meet it, and a driver step writes none of them. -/
theorem stepKeepsCdpInvariant : Obligations.StepKeepsCdpInvariant := by
  unfold Obligations.StepKeepsCdpInvariant
  intro s t hs h
  obtain ⟨hpar, -⟩ := step_par_hostPar h
  rw [hpar]
  rcases step_cdp_cases h with ⟨op, -, hx⟩ | ⟨-, -, ht⟩ | ⟨-, ht⟩
  · exact exec_keeps_cdpInv (s := { s with cmd := none }) hs hx
  · rw [ht]
    exact cdpInv_reset _
  · rw [ht]
    exact hs

/-- Settles O45: the registers are reset, the driver is idle, and no call has been made. -/
theorem resetMeetsInvariant : Obligations.ResetMeetsInvariant := by
  unfold Obligations.ResetMeetsInvariant
  exact ⟨cdpInv_reset _, fun h => absurd h (by decide), rfl⟩

/-- Settles O50: with no command waiting and no reset, the step is a driver step. -/
theorem hostWritesNoRegister : Obligations.HostWritesNoRegister := by
  unfold Obligations.HostWritesNoRegister
  intro s t hcmd hturn h
  rcases step_cdp_cases h with ⟨op, hop, -⟩ | ⟨-, hreset, -⟩ | ⟨-, ht⟩
  · rw [hcmd] at hop
    cases hop
  · exact absurd hreset hturn
  · exact ht

/-! ### The ports -/

theorem seenCalA_of_driven {s : State} {a : Image 26} (h : s.calA = some a) : s.seenCalA = a := by simp [State.seenCalA, h]

theorem seenCalB_of_driven {s : State} {b : Image 7} (h : s.calB = some b) : s.seenCalB = b := by simp [State.seenCalB, h]

theorem seenRaw_of_driven {s : State} {r : Image 8} (h : s.rawIn = some r) : s.seenRaw = r := by simp [State.seenRaw, h]

/-- The step in which an idle host is asked for `c`. -/
theorem step_asked {s : State} {c : Call} {rest : List Turn} (hq : Quiet s) (he : s.env = asked c :: rest) :
    step s = .next (startCall { s with env := rest } c) := by
  obtain ⟨hidle, hcmd⟩ := hq
  rw [step_turn hcmd he]
  simp [driverStep, hidle]

/-- Settles O39: what a sample shows, the frame of a command, and the step for each line of a program. -/
theorem portsSampledAsTheyStand : Obligations.PortsSampledAsTheyStand := by
  unfold Obligations.PortsSampledAsTheyStand
  refine ⟨fun _ _ => seenCalA_of_driven, fun _ _ => seenCalB_of_driven, fun _ _ => seenRaw_of_driven, fun i s t h => ?_,
    fun s rest hq => ⟨fun _ => step_asked hq, fun _ => step_asked hq, fun _ => step_asked hq, fun _ => step_asked hq⟩⟩
  rw [exec_frame h]
  exact ⟨rfl, rfl, rfl, rfl⟩

end Sys2Proof.Proofs
end

section
/-! PROOF. The step in which a command waits on `CMD` (20_memory.md R58). -/

open Sys2Proof Sys2Proof.Machine Sys2Proof.Certificates

namespace Sys2Proof.Proofs

/-- A single byte is one whole command (R70). -/
theorem decode_singleton_eq_ok_iff {op : Byte} {i : Instr} : decode [op] = .ok (i, []) ↔ decodeByte op = i := by
  simp [decode]

/-- What waits on `CMD` is fetched, and the fetch takes it from `CMD` (R58). -/
theorem fetch_of_cmd {s : State} {op : Byte} (hc : s.cmd = some op) : s.fetch = some (decodeByte op, { s with cmd := none }) := by
  simp only [State.fetch, hc]

/-- A step in which a command waits is that command's meaning; the outside world has no turn in it (R58). -/
theorem step_of_cmd {s : State} {op : Byte} (hc : s.cmd = some op) : step s = exec (decodeByte op) { s with cmd := none } := by
  simp only [step, fetch_of_cmd hc]

/-- Settles O36: the fetched command is the one that the decoder reads from the byte. -/
theorem stepRunsDecodedCommand : Obligations.StepRunsDecodedCommand := by
  unfold Obligations.StepRunsDecodedCommand
  intro s op i hc hd
  rw [step_of_cmd hc, decode_singleton_eq_ok_iff.mp hd]

end Sys2Proof.Proofs
end

section
/-! PROOF. The command map (30_encoding.md R70 to R72): decoder and encoder, and the meaning of a reserved code (R128). -/

open Sys2Proof Sys2Proof.Machine Sys2Proof.Certificates

namespace Sys2Proof.Proofs

@[simp] theorem decode_cons (op : Byte) (rest : List Byte) : decode (op :: rest) = .ok (decodeByte op, rest) := rfl

theorem encode_append (i : Instr) (rest : List Byte) : encode i ++ rest = i.opcode :: rest := rfl

theorem ne_of_four_le_toNat {op c : Byte} (h : 4 ≤ op.toNat) (hc : c.toNat < 4) : op ≠ c := by
  rintro rfl
  omega

/-- The codes from 4 on are the reserved ones (R72). -/
theorem decodeByte_of_four_le {op : Byte} (h : 4 ≤ op.toNat) : decodeByte op = .reserved op := by
  have hne {c : Byte} : c.toNat < 4 → op ≠ c := ne_of_four_le_toNat h
  rw [decodeByte, if_neg (hne (by decide)), if_neg (hne (by decide)), if_neg (hne (by decide)), if_neg (hne (by decide))]

/-- The command map by its rows (R71, R72). -/
theorem decodeByte_cases (op : Byte) :
    (op = 0x00 ∧ decodeByte op = .nop) ∨ (op = 0x01 ∧ decodeByte op = .calload) ∨ (op = 0x02 ∧ decodeByte op = .measure) ∨
      (op = 0x03 ∧ decodeByte op = .inval) ∨ (4 ≤ op.toNat ∧ decodeByte op = .reserved op) := by
  by_cases h : 4 ≤ op.toNat
  · exact .inr (.inr (.inr (.inr ⟨h, decodeByte_of_four_le h⟩)))
  · have hop : op = 0x00 ∨ op = 0x01 ∨ op = 0x02 ∨ op = 0x03 := by bv_omega
    rcases hop with rfl | rfl | rfl | rfl <;> decide

theorem decodeByte_opcode {i : Instr} (h : i.wf = true) : decodeByte i.opcode = i := by
  cases i with
  | reserved op => exact decodeByte_of_four_le (of_decide_eq_true h)
  | _ => rfl

theorem decodeByte_wf (op : Byte) : (decodeByte op).wf = true := by
  rcases decodeByte_cases op with ⟨-, h⟩ | ⟨-, h⟩ | ⟨-, h⟩ | ⟨-, h⟩ | ⟨hop, h⟩ <;> rw [h]
  case inr.inr.inr.inr => exact decide_eq_true hop
  all_goals rfl

theorem opcode_decodeByte (op : Byte) : (decodeByte op).opcode = op := by
  rcases decodeByte_cases op with ⟨rfl, -⟩ | ⟨rfl, -⟩ | ⟨rfl, -⟩ | ⟨rfl, -⟩ | ⟨-, h⟩
  case inr.inr.inr.inr => rw [h]; rfl
  all_goals rfl

/-- Settles O1: a decoder looks at the first byte only, and an encoding is the command's code. -/
theorem fourCodesDecode : Obligations.FourCodesDecode := by
  unfold Obligations.FourCodesDecode
  exact ⟨fun op rest => ⟨_, decode_cons op rest⟩, fun _ => rfl, fun _ => ⟨rfl, rfl, rfl, rfl⟩⟩

/-- Settles O2: the other codes are those from 4 on, and the meaning of a reserved code is `raise Err(ILLEGAL_COMMAND)`. -/
theorem otherCodesAreReserved : Obligations.OtherCodesAreReserved := by
  unfold Obligations.OtherCodesAreReserved
  intro op h0 h1 h2 h3 rest s
  have hop : 4 ≤ op.toNat := by bv_omega
  exact ⟨by rw [decode_cons, decodeByte_of_four_le hop], rfl⟩

/-- Settles O3: `decodeByte` and `opcode` are inverse to each other on the well-formed commands. -/
theorem decodeEncodeAgree : Obligations.DecodeEncodeAgree := by
  unfold Obligations.DecodeEncodeAgree
  refine ⟨fun i rest hi => ?_, fun bs i rest h => ?_⟩
  · rw [encode_append, decode_cons, decodeByte_opcode hi]
  · cases bs with
    | nil => cases h
    | cons op tail =>
      cases h
      exact ⟨decodeByte_wf op, by rw [encode_append, opcode_decodeByte]⟩

end Sys2Proof.Proofs
end

section
/-! PROOF. The operand forms (30_encoding.md R73 to R76): each field form and the bytes that hold it determine each other, so
the images and their values do. -/

open Sys2Proof Sys2Proof.Machine Sys2Proof.Certificates

namespace Sys2Proof.Proofs

/-! ### The field forms -/

@[simp] theorem le16_loByte_hiByte (v : BitVec 16) : le16 (loByte v) (hiByte v) = v :=
  BitVec.extractLsb'_append_extractLsb'

@[simp] theorem loByte_le16 (lo hi : Byte) : loByte (le16 lo hi) = lo := BitVec.extractLsb'_append_eq_right

@[simp] theorem hiByte_le16 (lo hi : Byte) : hiByte (le16 lo hi) = hi := BitVec.extractLsb'_append_eq_left

@[simp] theorem lowNibble_append (hi lo : BitVec 4) : lowNibble (hi ++ lo) = lo := BitVec.extractLsb'_append_eq_right

@[simp] theorem highNibble_append (hi lo : BitVec 4) : highNibble (hi ++ lo) = hi := BitVec.extractLsb'_append_eq_left

@[simp] theorem highNibble_append_lowNibble (b : Byte) : highNibble b ++ lowNibble b = b :=
  BitVec.extractLsb'_append_extractLsb'

theorem highNibble_append_zero {b : Byte} (h : lowNibble b = 0) : highNibble b ++ (0 : BitVec 4) = b := by
  rw [← h, highNibble_append_lowNibble]

@[simp] theorem packed12_extract (v : BitVec 12) : packed12 (v.extractLsb' 4 8) (v.extractLsb' 0 4) = v :=
  BitVec.extractLsb'_append_extractLsb'

@[simp] theorem packed12_high (b : Byte) (n : BitVec 4) : (packed12 b n).extractLsb' 4 8 = b :=
  BitVec.extractLsb'_append_eq_left

@[simp] theorem packed12_low (b : Byte) (n : BitVec 4) : (packed12 b n).extractLsb' 0 4 = n :=
  BitVec.extractLsb'_append_eq_right

@[simp] theorem be20_extract (v : BitVec 20) :
    be20 (v.extractLsb' 12 8) (v.extractLsb' 4 8) (v.extractLsb' 0 4 ++ (0 : BitVec 4)) = v := by
  have hbytes : v.extractLsb' 12 8 ++ v.extractLsb' 4 8 = v.extractLsb' 4 16 :=
    BitVec.extractLsb'_append_extractLsb'_eq_extractLsb' rfl
  rw [be20, highNibble_append, hbytes]
  exact BitVec.extractLsb'_append_extractLsb'

@[simp] theorem be20_byte0 (b0 b1 b2 : Byte) : (be20 b0 b1 b2).extractLsb' 12 8 = b0 := by
  rw [be20, BitVec.extractLsb'_append_eq_of_le (by decide)]
  exact BitVec.extractLsb'_append_eq_left

@[simp] theorem be20_byte1 (b0 b1 b2 : Byte) : (be20 b0 b1 b2).extractLsb' 4 8 = b1 := by
  rw [be20, BitVec.extractLsb'_append_eq_of_le (by decide)]
  exact BitVec.extractLsb'_append_eq_right

@[simp] theorem be20_nibble (b0 b1 b2 : Byte) : (be20 b0 b1 b2).extractLsb' 0 4 = highNibble b2 :=
  BitVec.extractLsb'_append_eq_right

/-! ### The numbers of the fields -/

theorem toNat_append_eq_add {m n : Nat} (x : BitVec m) (y : BitVec n) : (x ++ y).toNat = x.toNat * 2 ^ n + y.toNat := by
  rw [BitVec.toNat_append, ← Nat.shiftLeft_add_eq_or_of_lt y.isLt, Nat.shiftLeft_eq]

theorem toNat_highNibble (b : Byte) : (highNibble b).toNat = b.toNat / 16 := by
  rw [highNibble, BitVec.extractLsb'_toNat, Nat.shiftRight_eq_div_pow]
  omega

theorem toNat_be20 (b0 b1 b2 : Byte) :
    (be20 b0 b1 b2).toNat = b0.toNat * 2 ^ 12 + b1.toNat * 2 ^ 4 + b2.toNat / 16 := by
  rw [be20, toNat_append_eq_add, toNat_append_eq_add, toNat_highNibble]
  omega

/-! ### The calibration images -/

theorem decodeCal_calImage (k : Calib) : decodeCal (calImageA k) (calImageB k) = k := by
  simp [decodeCal, calImageA, calImageB]

theorem calImageA_decodeCal {a : Image 26} (b : Image 7) (h : a[24] = 0) : calImageA (decodeCal a b) = a := by
  simp only [calImageA, decodeCal, loByte_le16, hiByte_le16, ← h]
  exact Vector.ext fun i hi => by interval_cases i <;> rfl

theorem calImageB_decodeCal (a : Image 26) (b : Image 7) : calImageB (decodeCal a b) = b := by
  simp only [calImageB, decodeCal, loByte_le16, hiByte_le16, packed12_high, packed12_low, highNibble_append_lowNibble]
  exact Vector.ext fun i hi => by interval_cases i <;> rfl

/-- Settles O4: each field form and its bytes determine each other, and the fields use every byte but `CAL_A[24]`. -/
theorem calibrationImagesRoundTrip : Obligations.CalibrationImagesRoundTrip := by
  unfold Obligations.CalibrationImagesRoundTrip
  exact ⟨fun k => ⟨decodeCal_calImage k, rfl⟩, fun a b h => ⟨calImageA_decodeCal b h, calImageB_decodeCal a b⟩⟩

/-! ### The raw data image -/

theorem rawAdcImage_raw {r : Image 8} (h2 : lowNibble r[2] = 0) (h5 : lowNibble r[5] = 0) :
    rawAdcImage (rawP r) (rawT r) (rawH r) = r := by
  have hlo : loByte (rawH r) = r[7] := loByte_le16 _ _
  have hhi : hiByte (rawH r) = r[6] := hiByte_le16 _ _
  simp only [rawAdcImage, hlo, hhi, rawP, rawT, be20_byte0, be20_byte1, be20_nibble, highNibble_append_zero h2,
    highNibble_append_zero h5]
  exact Vector.ext fun i hi => by interval_cases i <;> rfl

/-- Settles O5: a raw value and its bytes determine each other where the unused nibble is 0. -/
theorem rawImagesRoundTrip : Obligations.RawImagesRoundTrip := by
  unfold Obligations.RawImagesRoundTrip
  exact ⟨fun p t h => ⟨be20_extract p, be20_extract t, le16_loByte_hiByte h⟩, fun _ => rawAdcImage_raw⟩

/-- Settles O6: the number of a big-endian field with trailing nibble. -/
theorem rawImageLayout : Obligations.RawImageLayout := by
  unfold Obligations.RawImageLayout
  exact fun r => ⟨toNat_be20 _ _ _, toNat_be20 _ _ _, toNat_append_eq_add _ _⟩

/-! ### STATUS -/

theorem getLsbD_append_ofBool_zero {n : Nat} (x : BitVec n) (b : Bool) : (x ++ BitVec.ofBool b).getLsbD 0 = b := by
  rw [BitVec.getLsbD_append, if_pos Nat.one_pos]
  simp

theorem getLsbD_append_ofBool_succ {n : Nat} (x : BitVec n) (b : Bool) (i : Nat) :
    (x ++ BitVec.ofBool b).getLsbD (i + 1) = x.getLsbD i := by
  simp [BitVec.getLsbD_append]

theorem extractLsb'_append_ofBool_succ {n : Nat} (x : BitVec n) (b : Bool) (i len : Nat) :
    (x ++ BitVec.ofBool b).extractLsb' (i + 1) len = x.extractLsb' i len :=
  BitVec.extractLsb'_append_eq_of_le (Nat.le_add_left 1 i)

theorem statusWord_bit0 (s : Status) : s.word.getLsbD 0 = s.avail := getLsbD_append_ofBool_zero _ _

theorem statusWord_bit1 (s : Status) : s.word.getLsbD 1 = s.resValid :=
  (getLsbD_append_ofBool_succ _ _ 0).trans (getLsbD_append_ofBool_zero _ _)

theorem statusWord_bit2 (s : Status) : s.word.getLsbD 2 = s.pZero :=
  (getLsbD_append_ofBool_succ _ _ 1).trans ((getLsbD_append_ofBool_succ _ _ 0).trans (getLsbD_append_ofBool_zero _ _))

/-- Above its three flags, `STATUS` is the reserved bits and `ERR` (R77). -/
theorem statusWord_extract_above_flags (s : Status) (i len : Nat) :
    s.word.extractLsb' (i + 3) len = ((0 : BitVec 2) ++ s.err).extractLsb' i len :=
  (extractLsb'_append_ofBool_succ _ _ (i + 2) len).trans
    ((extractLsb'_append_ofBool_succ _ _ (i + 1) len).trans (extractLsb'_append_ofBool_succ _ _ i len))

theorem statusWord_err (s : Status) : s.word.extractLsb' 3 3 = s.err :=
  (statusWord_extract_above_flags s 0 3).trans BitVec.extractLsb'_append_eq_right

theorem statusWord_reserved (s : Status) : s.word.extractLsb' 6 2 = 0 :=
  (statusWord_extract_above_flags s 3 2).trans BitVec.extractLsb'_append_eq_left

/-- Settles O7: each field read from the concatenation that `STATUS` is. -/
theorem statusFieldsAtTheirBits : Obligations.StatusFieldsAtTheirBits := by
  unfold Obligations.StatusFieldsAtTheirBits
  exact ⟨rfl, fun s => ⟨statusWord_bit0 s, statusWord_bit1 s, statusWord_bit2 s, statusWord_err s, statusWord_reserved s⟩⟩

end Sys2Proof.Proofs
end

section
/-! PROOF. No result register ever holds NaN or infinity (30_encoding.md R80, 45_scaling.md R215): narrowing a value of bounded
size answers a finite pattern of the format. -/

open Sys2Proof Sys2Proof.Machine Sys2Proof.Certificates

namespace Sys2Proof.Proofs

/-- The register content `c` is a finite pattern of the format (R215). -/
def HoldsFinite : ResultFmt → FloatVal → Prop
  | .binary64, c => ∃ v : BitVec 64, c = .binary64 v ∧ Finite fmt64 (unpackFlt v)
  | .binary32, c => ∃ v : BitVec 32, c = .binary32 v ∧ Finite fmt32 (unpackFlt v)

theorem finite_unpackFlt_packFlt {f : FloatFmt} {w : Nat} (hw : 0 < w) (hf : f.infinity ≤ 2 ^ (w - 1)) {x : Flt}
    (hx : Finite f x) : Finite f (unpackFlt (packFlt w x)) := by
  rwa [unpackFlt_packFlt hw (hx.trans_le hf)]

/-- A finite value narrowed is finite: in binary32 the rounding of `NarrowsTo` is. -/
theorem holdsFinite_of_narrowsTo {fmt : ResultFmt} {neg : Bool} {m : Nat} {c : FloatVal} (hm : m < fmt64.infinity)
    (h : NarrowsTo neg m fmt c) : HoldsFinite fmt c := by
  cases fmt with
  | binary64 => exact ⟨_, h, finite_unpackFlt_packFlt (by decide) (by decide) hm⟩
  | binary32 =>
    obtain ⟨m', hr, hc⟩ := h
    exact ⟨_, hc, finite_unpackFlt_packFlt (by decide) (by decide) hr.1.1⟩

theorem scaleTemp_holdsFinite (fmt : ResultFmt) {t : Int} (hlo : -23040 ≤ t) (hhi : t ≤ 23040) :
    HoldsFinite fmt (scaleTempC fmt t) ∧ HoldsFinite fmt (scaleTempF fmt (scaleTempC fmt t)) := by
  obtain ⟨⟨m, hm, hC⟩, x, k, p, q, -, -, -, hq, hF⟩ := tempCCorrectlyRounded fmt t hlo hhi
  exact ⟨holdsFinite_of_narrowsTo hm.1.1 hC, holdsFinite_of_narrowsTo hq.1.1 hF⟩

theorem scalePress_holdsFinite (fmt : ResultFmt) {p : Int} (hlo : -2 ^ 63 ≤ p) (hhi : p < 2 ^ 63) :
    HoldsFinite fmt (scalePress fmt p) := by
  obtain ⟨i, m, -, -, hm, hP⟩ := pressHpaCorrectlyRounded.1 fmt p hlo hhi
  exact holdsFinite_of_narrowsTo hm.1.1 hP

/-! ### HUM_PCT -/

/-- A finite value small enough to be finite in binary32 too. -/
def Bounded (x : Flt) : Prop := Finite fmt64 x ∧ fmt64.units x.mag ≤ 2 ^ 1100

theorem narrowFlt_holdsFinite (fmt : ResultFmt) {x : Flt} (h : Bounded x) : HoldsFinite fmt (narrowFlt fmt x) :=
  holdsFinite_of_narrowsTo h.1 (narrowFlt_narrowsTo h.2 (by decide))

theorem bounded_of_rounds {x : Flt} {n d : Nat} (h : Rounds fmt64 n d x.mag) (hd : 0 < d) (hn : n ≤ 2 ^ 1100 * d) :
    Bounded x := ⟨h.1.1, units_le_two_pow_of_rounds h hd (by decide) hn⟩

theorem bounded_fmax {x y : Flt} (hx : Bounded x) (hy : Bounded y) : Bounded (fmax x y) := by
  unfold fmax
  split
  · exact hy
  · exact hx

theorem bounded_fmin {x y : Flt} (hx : Bounded x) (hy : Bounded y) : Bounded (fmin x y) := by
  unfold fmin
  split
  · exact hy
  · exact hx

theorem bounded_f64Const {num : Nat} (hnum : num ≤ 2 ^ 10) : Bounded (f64Const num 1) :=
  bounded_of_rounds (f64Const_rounds (by decide) (hnum.trans (by decide))) (by decide)
    (by rw [Nat.mul_one]; exact mul_two_pow_le hnum (by decide))

/-- `f64(h) ⊘ K(1024.0)` is h/1024 rounded once: both operands are exact. -/
theorem f64Div_1024_rounds {h : Int} (hh : h.natAbs ≤ 2 ^ 17) :
    Rounds fmt64 (h.natAbs * 2 ^ fmt64.scale) 1024 (f64Div (f64OfInt h) (f64Const 1024 1)).mag := by
  have hc : fmt64.units (f64Const 1024 1).mag = 1024 * 2 ^ fmt64.scale := f64Const_units (by decide)
  have hi : fmt64.units (f64OfInt h).mag = h.natAbs * 2 ^ fmt64.scale := f64OfInt_units (hh.trans (by decide))
  refine f64Div_rounds (by rw [hc]; positivity) (by decide) ?_ (mul_two_pow_lt_mul hh (by decide) (by decide))
  rw [hc, hi]
  ring

theorem scaleHum_holdsFinite (fmt : ResultFmt) {h : Int} (hh : h.natAbs ≤ 2 ^ 17) : HoldsFinite fmt (scaleHum fmt h) := by
  have hq : Bounded (f64Div (f64OfInt h) (f64Const 1024 1)) := bounded_of_rounds (f64Div_1024_rounds hh) (by decide)
    ((mul_two_pow_le hh (by decide)).trans (Nat.le_mul_of_pos_right _ (by decide)))
  exact narrowFlt_holdsFinite fmt (bounded_fmin (bounded_fmax hq (bounded_f64Const (by decide))) (bounded_f64Const (by decide)))

/-- The four results of Scale in the evaluators' ranges (R215). -/
theorem scale_holdsFinite (fmt : ResultFmt) {t p h : Int} (ht : -23040 ≤ t ∧ t ≤ 23040) (hp : -2 ^ 63 ≤ p ∧ p < 2 ^ 63)
    (hh : 0 ≤ h ∧ h ≤ 102400) :
    ∀ c ∈ [scaleTempC fmt t, scaleTempF fmt (scaleTempC fmt t), scalePress fmt p, scaleHum fmt h], HoldsFinite fmt c := by
  obtain ⟨hC, hF⟩ := scaleTemp_holdsFinite fmt ht.1 ht.2
  have hP := scalePress_holdsFinite fmt hp.1 hp.2
  have hH : HoldsFinite fmt (scaleHum fmt h) := scaleHum_holdsFinite fmt (by omega)
  simp [hC, hF, hP, hH]

/-- Settles O35: the same bound in either format. -/
theorem floatResultsFinite : Obligations.FloatResultsFinite := by
  unfold Obligations.FloatResultsFinite
  intro t p h ht ht' hp hp' hh hh'
  exact ⟨scale_holdsFinite .binary64 ⟨ht, ht'⟩ ⟨hp, hp'⟩ ⟨hh, hh'⟩, scale_holdsFinite .binary32 ⟨ht, ht'⟩ ⟨hp, hp'⟩ ⟨hh, hh'⟩⟩

end Sys2Proof.Proofs
end

section
/-! PROOF. The calibration commands CALLOAD and INVAL (40_calibration.md R100, R102, R104), and what each command leaves
unchanged. -/

open Sys2Proof Sys2Proof.Machine Sys2Proof.Certificates

namespace Sys2Proof.Proofs

/-! ### The numbers of the calibration fields -/

/-- Two's complement reads a word's number wrapped to its width (R12). -/
theorem toInt_eq_wrap_toNat {w : Nat} (hw : 0 < w) (b : BitVec w) : b.toInt = wrap w (b.toNat : Int) := by
  rw [wrap_eq_toInt hw, BitVec.ofInt_natCast, BitVec.ofNat_toNat, BitVec.setWidth_eq]

theorem toNat_lowNibble (b : Byte) : (lowNibble b).toNat = b.toNat % 16 := by
  rw [lowNibble, BitVec.extractLsb'_toNat, Nat.shiftRight_zero]

theorem toNat_le16 (lo hi : Byte) : ((le16 lo hi).toNat : Int) = lo.toNat + 256 * hi.toNat := by
  rw [le16, toNat_append_eq_add]
  omega

theorem toInt_le16 (lo hi : Byte) : (le16 lo hi).toInt = wrap 16 (lo.toNat + 256 * hi.toNat) := by
  rw [toInt_eq_wrap_toNat (by decide), toNat_le16]

theorem toInt_packed12 (b : Byte) (n : BitVec 4) : (packed12 b n).toInt = wrap 12 (16 * b.toNat + n.toNat) := by
  rw [toInt_eq_wrap_toNat (by decide), packed12, toNat_append_eq_add]
  congr 1
  omega

/-- The fields as CALLOAD decodes them are those of the tables of R74 and R75. -/
theorem decodeCal_layout (a : Image 26) (b : Image 7) : CalLayout a b (decodeCal a b) := by
  have hbyte (v : Byte) : v.toInt = wrap 8 v.toNat := toInt_eq_wrap_toNat (by decide) v
  simp [CalLayout, decodeCal, toNat_le16, toInt_le16, toInt_packed12, toNat_lowNibble, toNat_highNibble, hbyte]

/-! ### CALLOAD and INVAL -/

theorem execCalload_unavailable {s : State} (h : s.cdp.status.avail = false) :
    execCalload s = .next ((s.sampled 2).setCdp (s.cdp.loadCal (decodeCal s.seenCalA s.seenCalB))) := by
  simp [execCalload, h]

theorem execCalload_available {s : State} (h : s.cdp.status.avail = true) :
    execCalload s = .next (s.setCdp (s.cdp.raiseErr errNone)) := by
  simp [execCalload, h]

/-- Settles O9: the two branches of CALLOAD, and the layout of what it decodes. -/
theorem calloadDecodesOrKeeps : Obligations.CalloadDecodesOrKeeps := by
  unfold Obligations.CalloadDecodesOrKeeps
  exact ⟨rfl, fun s => ⟨fun h => ⟨_, decodeCal_layout _ _, execCalload_unavailable h⟩, execCalload_available⟩⟩

/-- Settles O10: the registers that INVAL writes it writes with constants. -/
theorem invalReleases : Obligations.InvalReleases := by
  unfold Obligations.InvalReleases
  exact ⟨rfl, fun _ => ⟨rfl, rfl⟩⟩

/-! ### What a command leaves unchanged -/

/-- MEASURE writes neither `CAL` nor `AVAIL`, on any of its paths (R121, R122, R124). -/
theorem execMeasure_cal_avail {s t : State} (h : execMeasure s = .next t) :
    t.cdp.cal = s.cdp.cal ∧ t.cdp.status.avail = s.cdp.status.avail := by
  rcases execMeasure_cases h with ⟨-, rfl⟩ | ⟨-, -, rfl⟩ | ⟨-, -, k, res, -, -, rfl⟩ | ⟨-, -, -, rfl⟩ <;> exact ⟨rfl, rfl⟩

/-- Settles O40: a command writes the registers only, and of these what its own branches write. -/
theorem commandFrames : Obligations.CommandFrames := by
  unfold Obligations.CommandFrames
  intro i s t h
  refine ⟨?_, ?_⟩
  · rw [exec_frame h]
    exact ⟨rfl, rfl, rfl, rfl, rfl, rfl⟩
  · cases i with
    | nop => cases h; rfl
    | calload => rcases execCalload_cases h with ⟨-, rfl⟩ | ⟨-, rfl⟩ <;> rfl
    | measure => exact execMeasure_cal_avail h
    | inval => cases h; rfl
    | reserved op => cases h; rfl

/-- While available, no command but INVAL changes `CAL` (R102). -/
theorem exec_cal_of_available {i : Instr} {s t : State} (ha : s.cdp.status.avail = true) (hi : i ≠ .inval)
    (h : exec i s = .next t) : t.cdp.cal = s.cdp.cal := by
  cases i with
  | nop => cases h; rfl
  | calload => cases (execCalload_available ha).symm.trans h; rfl
  | measure => exact (execMeasure_cal_avail h).1
  | inval => exact absurd rfl hi
  | reserved op => cases h; rfl

theorem eq_of_decodeByte_inval {op : Byte} (h : decodeByte op = .inval) : op = 0x03 := by
  rw [← opcode_decodeByte op, h]
  rfl

/-- Settles O43: a driver step writes no register, and of the commands only INVAL changes `CAL` while available. -/
theorem calibrationImmutableWhileAvailable : Obligations.CalibrationImmutableWhileAvailable := by
  unfold Obligations.CalibrationImmutableWhileAvailable
  intro s t ha h hne
  rcases step_cdp_cases h with ⟨op, hop, hx⟩ | ⟨hcmd, hturn, -⟩ | ⟨-, ht⟩
  · have hi : decodeByte op = .inval := by
      by_contra hi
      exact hne (exec_cal_of_available (s := { s with cmd := none }) ha hi hx)
    exact .inl (by rw [hop, eq_of_decodeByte_inval hi])
  · exact .inr ⟨hcmd, hturn⟩
  · exact absurd (by rw [ht]) hne

end Sys2Proof.Proofs
end

section
/-! PROOF. The release of a session, after a failed read or because the caller asks for it (40_calibration.md R105,
46_host_protocol.md R240, R241). -/

open Sys2Proof Sys2Proof.Machine Sys2Proof.Certificates

namespace Sys2Proof.Proofs

/-- The state after a release that returns `r` and ends at the turns `rest`, where the driver has made the calls `calls`,
newest first: the CDP is invalidated and the handle is gone (R105). -/
def releasedState (s : State) (r : HostResult) (calls : List PrimCall) (rest : List Turn) : State :=
  { s with
    cdp := invalidated s.cdp, env := rest
    driver := { s.driver with handle := none, task := .idle, result := some r }, trace := calls ++ s.trace }

/-- The CDP executes an INVAL that waits on `CMD` (R58, R104). -/
theorem run_inval {n : Nat} {s : State} (hc : s.cmd = some 0x03) :
    core.run (n + 1) s = core.run n { s with cmd := none, cdp := invalidated s.cdp } := run_next (step_of_cmd hc)

/-- A release: `Detach`, the driver's INVAL, its execution by the CDP, and the return; three turns, four steps (R105). -/
theorem run_drop {s : State} {h : Option Handle} {r : HostResult} {rest : List Turn} (hc : s.cmd = none)
    (hh : s.driver.handle = h) (ht : s.driver.task = .drop r) (he : s.env = List.replicate 3 (granted 0 []) ++ rest) :
    core.run 4 s = .next (releasedState s r [.cmd 0x03, .detach h] rest) := by
  have hdetach : step s = .next { s with
      env := List.replicate 2 (granted 0 []) ++ rest
      driver := { s.driver with handle := none, task := .inval r }
      trace := .detach h :: s.trace } := by
    rw [step_turn hc he]
    simp [driverStep, ht, hh, State.call, State.setHandle, State.goto]
  rw [run_next hdetach, run_next (step_turn (by exact hc) rfl), run_inval rfl, run_next (step_turn rfl rfl), releasedState, ← hc]
  rfl

/-- A failure of either transaction of `read` is followed by a release that returns it (R240, R241). -/
theorem resume_err_of_read {site : Site} (h : site = .status ∨ site = .data) (s : State) (e : HostErr) :
    s.resume (.err e) site = s.goto (.drop (.err e)) := by
  rcases h with rfl | rfl <;> rfl

/-- A transfer that has been made: the lock is released and the driver resumes (R235). -/
theorem run_transfer {n : Nat} {s : State} {site : Site} {call c2 : Option Call} {ok o2 : Bool} {handle h2 : Handle}
    {bytes b2 : List Byte} {rest : List Turn} (hc : s.cmd = none) (ht : s.driver.task = .txn site .transfer)
    (he : s.env = .act call ok handle bytes :: .act c2 o2 h2 b2 :: rest) :
    core.run (n + 2) s =
      core.run n (State.resume
        { s with
          env := rest
          driver := { s.driver with task := .txn site (.release (site.op.outcome ok bytes)) }
          trace := [.release, site.op.primCall s.hostPar s.driver.handle] ++ s.trace }
        (site.op.outcome ok bytes) site) := by
  have htransfer : step s = .next { s with
      env := .act c2 o2 h2 b2 :: rest
      driver := { s.driver with task := .txn site (.release (site.op.outcome ok bytes)) }
      trace := site.op.primCall s.hostPar s.driver.handle :: s.trace } := by
    rw [step_turn hc he]
    simp [driverStep, ht, txnStep, State.call, State.goto]
  rw [run_next htransfer, run_next (step_turn (by exact hc) rfl)]
  rfl

/-- A transaction with a bad argument ends before it takes the lock (R236, R237). -/
theorem run_txn_badArgument {n : Nat} {s : State} {site : Site} {call : Option Call} {ok : Bool} {handle : Handle}
    {bytes : List Byte} {rest : List Turn} (hc : s.cmd = none) (ht : s.driver.task = .txn site .acquire)
    (hb : site.op.badArgument s.driver.handle = true) (he : s.env = .act call ok handle bytes :: rest) :
    core.run (n + 1) s = core.run n (State.resume { s with env := rest } (.err .invalidArgument) site) := by
  refine run_next ?_
  rw [step_turn hc he]
  simp [driverStep, ht, txnStep, hb]

/-- The two transactions of `read` are reads of at least one byte, so the only bad argument is a missing handle (R236, R240,
R241). -/
theorem read_transaction {site : Site} {reg : Byte} {n : Nat}
    (h : (site, reg, n) = (Site.status, Config.statusReg, 1) ∨ (site, reg, n) = (Site.data, Config.dataReg, 8)) :
    (site = .status ∨ site = .data) ∧ site.op = .read reg n ∧ ∀ handle, site.op.badArgument handle = handle.isNone := by
  rcases h with h | h <;> cases h
  · exact ⟨.inl rfl, rfl, fun _ => Bool.or_false _⟩
  · exact ⟨.inr rfl, rfl, fun _ => Bool.or_false _⟩

theorem startRelease_of_handle {s : State} {h : Handle} (hh : s.driver.handle = some h) :
    startRelease s = s.goto (.drop .ok) := by simp [startRelease, hh]

theorem startRelease_of_noHandle {s : State} (hh : s.driver.handle = none) : startRelease s = s.finish .ok := by
  simp [startRelease, hh]

/-- Settles O58: each failure, and the caller's request, brings the driver to the start of a release. -/
theorem readFailureInvalidates : Obligations.ReadFailureInvalidates := by
  unfold Obligations.ReadFailureInvalidates
  intro s rest hc
  refine ⟨fun h site reg n hsite => ?read, fun h hh ht he => ?release, fun hh ht he => ?nothing⟩
  case read =>
    obtain ⟨hread, hop, hbad⟩ := read_transaction hsite
    refine ⟨fun hh ht he => ?transfer, fun hh ht he => ?lock, fun hh ht he => ?noHandle⟩
    case transfer =>
      have hout : site.op.outcome false [] = .err .timeout := by rw [hop]; rfl
      rw [run_transfer hc ht he, hout, hop, hh, resume_err_of_read hread]
      exact run_drop hc hh rfl rfl
    case lock =>
      rw [run_txn_refused hc ht (by rw [hbad, hh]; rfl) he, resume_err_of_read hread]
      exact run_drop hc hh rfl rfl
    case noHandle =>
      rw [run_txn_badArgument hc ht (by rw [hbad, hh]; rfl) he, resume_err_of_read hread]
      exact run_drop hc hh rfl rfl
  case release =>
    rw [run_next (step_asked ⟨ht, hc⟩ he), startCall, startRelease_of_handle (by exact hh)]
    exact run_drop hc hh rfl rfl
  case nothing =>
    rw [step_asked ⟨ht, hc⟩ he, startCall, startRelease_of_noHandle (by exact hh), State.finish, ← ht]

end Sys2Proof.Proofs
end

section
/-! PROOF. NOP and MEASURE (41_measure.md): what MEASURE does on each of its paths (R121 to R125), that this is determined by
`CAL`, `AVAIL`, the sampled image and the parameters (R126), and that doing it again changes no register (R127). -/

open Sys2Proof Sys2Proof.Machine Sys2Proof.Certificates

namespace Sys2Proof.Proofs

theorem exec_measure (s : State) : exec .measure s = execMeasure s := rfl

/-- Settles O8: the first code decodes to NOP, and its meaning is to answer the state. -/
theorem nopDoesNothing : Obligations.NopDoesNothing := by
  unfold Obligations.NopDoesNothing
  exact ⟨rfl, fun _ => rfl⟩

/-! ### MEASURE without a result -/

/-- Settles O11: a failed MEASURE writes the two status fields. -/
theorem measureUnavailable : Obligations.MeasureUnavailable := by
  unfold Obligations.MeasureUnavailable
  intro s h
  rw [exec_measure, execMeasure_unavailable h]
  rfl

/-- The statements' sentinel condition is the one that MEASURE tests (R124, R125). -/
theorem isSentinel_eq_true_iff (par : Params) (r : Image 8) :
    isSentinel par (rawP r) (rawT r) (rawH r) = true ↔ SentinelIn par r := isSentinel_iff ..

theorem isSentinel_eq_false_iff (par : Params) (r : Image 8) :
    isSentinel par (rawP r) (rawT r) (rawH r) = false ↔ ¬SentinelIn par r := by
  rw [← isSentinel_eq_true_iff, Bool.not_eq_true]

/-- The bytes of the 20-bit sentinel: the low nibble of the last one is not part of the value (R76, R124). -/
theorem be20_eq_sentinel_iff (b0 b1 b2 : Byte) :
    be20 b0 b1 b2 = 0x80000 ↔ b0 = 0x80 ∧ b1 = 0 ∧ b2.toNat / 16 = 0 := by
  have h1 := b1.isLt
  have h2 := b2.isLt
  simp only [← BitVec.toNat_inj, toNat_be20, BitVec.ofNat_eq_ofNat, BitVec.toNat_ofNat]
  omega

/-- Settles O12: the bytes of the sentinel, and the path of MEASURE on which it is found. -/
theorem measureOnSentinel : Obligations.MeasureOnSentinel := by
  unfold Obligations.MeasureOnSentinel
  refine ⟨fun r => ⟨be20_eq_sentinel_iff _ _ _, be20_eq_sentinel_iff _ _ _⟩, fun s h hs => ?_⟩
  rw [exec_measure, execMeasure_sentinel h ((isSentinel_eq_true_iff _ _).mpr hs)]
  rfl

/-! ### MEASURE with a result -/

/-- Settles O13: CompT, CompP and CompH give the results that MEASURE publishes; on the hardware each of them answers. -/
theorem measureComputes : Obligations.MeasureComputes := by
  unfold Obligations.MeasureComputes
  intro s k ha hk hs computes
  have hpublish : ∀ tf t p h z, computes tf t p h z → exec .measure s = .next (measuredState s tf t p h z) := by
    rintro tf t p h z ⟨hT, hP, hH⟩
    rw [exec_measure, execMeasure_publish ha ((isSentinel_eq_false_iff _ _).mpr hs) hk (measureResults_eq hT hP hH)]
    rfl
  refine ⟨hpublish, fun hwrap => ?_⟩
  obtain ⟨tf, t, hT⟩ := compT_wrap_some (rawT s.seenRaw).toNat k
  obtain ⟨p, z, hP⟩ := compP_wrap_some (rawP s.seenRaw).toNat tf k
  obtain ⟨h, hH⟩ := compH_wrap_some (rawH s.seenRaw).toNat tf k
  have hcomputes : computes tf t p h z := by
    rw [← hwrap] at hT hP hH
    exact ⟨hT, hP, hH⟩
  exact ⟨tf, t, p, h, z, hcomputes, hpublish tf t p h z hcomputes⟩

/-! ### What the outcome of MEASURE depends on -/

/-- The states `s` and `s'` agree on all that MEASURE reads (R126). -/
structure SameMeasureInputs (s s' : State) : Prop where
  par : s'.par = s.par
  cal : s'.cdp.cal = s.cdp.cal
  avail : s'.cdp.status.avail = s.cdp.status.avail
  raw : s'.seenRaw = s.seenRaw

theorem SameMeasureInputs.refl (s : State) : SameMeasureInputs s s := ⟨rfl, rfl, rfl, rfl⟩

/-- MEASURE stops exactly where there is something to compute and an evaluator answers no value (R264). -/
theorem execMeasure_fault_iff (s : State) (e : Fault) :
    execMeasure s = .fault e ↔
      s.cdp.status.avail = true ∧ isSentinel s.par (rawP s.seenRaw) (rawT s.seenRaw) (rawH s.seenRaw) = false ∧
      ∃ k, s.cdp.cal = some k ∧ measureResults s.par k (rawP s.seenRaw) (rawT s.seenRaw) (rawH s.seenRaw) = none := by
  cases e
  cases ha : s.cdp.status.avail with
  | false => simp [execMeasure_unavailable ha]
  | true =>
    cases hs : isSentinel s.par (rawP s.seenRaw) (rawT s.seenRaw) (rawH s.seenRaw) with
    | true => simp [execMeasure_sentinel ha hs]
    | false =>
      cases hk : s.cdp.cal with
      | none => simp [execMeasure_noCal ha hs hk]
      | some k =>
        rw [execMeasure_results ha hs hk]
        cases hr : measureResults s.par k (rawP s.seenRaw) (rawT s.seenRaw) (rawH s.seenRaw) <;> simp [hr]

theorem SameMeasureInputs.fault_iff {s s' : State} (h : SameMeasureInputs s s') (e : Fault) :
    execMeasure s = .fault e ↔ execMeasure s' = .fault e := by
  rw [execMeasure_fault_iff, execMeasure_fault_iff, h.par, h.cal, h.avail, h.raw]

/-- What the register writes of MEASURE have in common: on any registers they leave the same `RES_VALID` and `ERR`, where they
publish a result they leave nothing of the old registers but `CAL` and `AVAIL`, and made twice they are made once. -/
structure MeasureWrite (w : Cdp → Cdp) : Prop where
  resValid : ∀ c c', (w c).status.resValid = (w c').status.resValid
  err : ∀ c c', (w c).status.err = (w c').status.err
  published : ∀ c c', (w c).status.resValid = true → c'.cal = c.cal → c'.status.avail = c.status.avail → w c = w c'
  idempotent : ∀ c, w (w c) = w c

theorem measureWrite_failMeasure (code : BitVec 3) : MeasureWrite (·.failMeasure code) where
  resValid _ _ := rfl
  err _ _ := rfl
  published _ _ h := by cases h
  idempotent _ := rfl

theorem measureWrite_latch_failMeasure (r : Image 8) (code : BitVec 3) :
    MeasureWrite fun c => (c.latch r).failMeasure code where
  resValid _ _ := rfl
  err _ _ := rfl
  published _ _ h := by cases h
  idempotent _ := rfl

theorem measureWrite_latch_publish (r : Image 8) (res : Results) : MeasureWrite fun c => (c.latch r).publish res where
  resValid _ _ := rfl
  err _ _ := rfl
  published c c' _ hcal havail := by simp [Cdp.publish, Cdp.latch, Status.publish, hcal, havail]
  idempotent _ := rfl

/-- The inputs of a MEASURE that completes determine its register writes (R126). -/
theorem execMeasure_write {s t : State} (h : execMeasure s = .next t) :
    ∃ w, MeasureWrite w ∧
      ∀ s', SameMeasureInputs s s' → ∃ t', execMeasure s' = .next t' ∧ t'.cdp = w s'.cdp := by
  rcases execMeasure_cases h with ⟨ha, -⟩ | ⟨ha, hs, -⟩ | ⟨ha, hs, k, res, hk, hr, -⟩ | ⟨ha, hs, hk, -⟩
  · exact ⟨_, measureWrite_failMeasure errInvalidState, fun s' hin =>
      ⟨_, execMeasure_unavailable (hin.avail.trans ha), rfl⟩⟩
  · exact ⟨_, measureWrite_latch_failMeasure s.seenRaw errInvalidResponse, fun s' hin =>
      ⟨_, execMeasure_sentinel (hin.avail.trans ha) (by rw [hin.par, hin.raw, hs]), by rw [hin.raw]; rfl⟩⟩
  · exact ⟨_, measureWrite_latch_publish s.seenRaw res, fun s' hin =>
      ⟨_, execMeasure_publish (hin.avail.trans ha) (by rw [hin.par, hin.raw, hs]) (hin.cal.trans hk)
        (by rw [hin.par, hin.raw, hr]), by rw [hin.raw]; rfl⟩⟩
  · exact ⟨_, measureWrite_failMeasure errInvalidState, fun s' hin =>
      ⟨_, execMeasure_noCal (hin.avail.trans ha) (by rw [hin.par, hin.raw, hs]) (hin.cal.trans hk), rfl⟩⟩

/-- On a driven port, MEASURE leaves its own inputs as they are (R127). -/
theorem execMeasure_keeps_inputs {s t : State} {r : Image 8} (hr : s.rawIn = some r) (h : execMeasure s = .next t) :
    SameMeasureInputs s t := by
  obtain ⟨hcal, havail⟩ := execMeasure_cal_avail h
  have hframe : t = { s with cdp := t.cdp, draws := t.draws } := exec_frame (i := .measure) h
  have hpar : t.par = s.par := by rw [hframe]
  have hraw : t.rawIn = some r := by rw [hframe, hr]
  exact ⟨hpar, hcal, havail, by rw [seenRaw_of_driven hraw, seenRaw_of_driven hr]⟩

/-- Settles O44: both states have the same register writes, which the repetition makes once more. -/
theorem measureDependsOnInputsOnly : Obligations.MeasureDependsOnInputsOnly := by
  unfold Obligations.MeasureDependsOnInputsOnly
  intro s s' r hpar hcal havail hr hr'
  have hin : SameMeasureInputs s s' :=
    ⟨hpar.symm, hcal.symm, havail.symm, by rw [seenRaw_of_driven hr, seenRaw_of_driven hr']⟩
  refine ⟨hin.fault_iff, fun t ht => ?_⟩
  obtain ⟨w, hw, hwrite⟩ := execMeasure_write ht
  have htw : t.cdp = w s.cdp := by
    obtain ⟨t₀, ht₀, hcdp⟩ := hwrite s (.refl s)
    cases ht.symm.trans ht₀
    exact hcdp
  obtain ⟨t', ht', ht'w⟩ := hwrite s' hin
  obtain ⟨u, hu, huw⟩ := hwrite t (execMeasure_keeps_inputs hr ht)
  rw [htw] at huw ⊢
  refine ⟨t', ht', ?_⟩
  rw [ht'w]
  exact ⟨hw.resValid _ _, hw.err _ _, fun hv => hw.published _ _ hv hin.cal hin.avail, u, hu, huw.trans (hw.idempotent _)⟩

end Sys2Proof.Proofs
end

section
/-! PROOF. CompT (42_temperature.md): its value in either overflow mode as three narrowed products and exact operations on them
(R150, R152), from which its closed form, its ranges (R151), its overflow sites and the rounding of `t` (R153) follow. -/

open Sys2Proof Sys2Proof.Machine Sys2Proof.Certificates

namespace Sys2Proof.Proofs

theorem fits_of_narrow {m : OvfMode} {w : Nat} (hw : 0 < w) {v r : Int} (h : narrow m w v = some r) : Fits w r :=
  (fits_iff_inWidth w r).mpr (narrow_spec hw h).1

/-- The lines after an operator matter only for the values that fit its width. -/
theorem narrow_bind_congr {α : Type} {m : OvfMode} {w : Nat} (hw : 0 < w) {v : Int} {f g : Int → Option α}
    (h : ∀ r, Fits w r → f r = g r) : (narrow m w v >>= f) = (narrow m w v >>= g) :=
  Option.bind_congr fun r hr => h r (fits_of_narrow hw hr)

/-! ### The value of CompT -/

/-- Only the three products of `tf` can leave s32 (R152). -/
theorem fineTemperature_eq (m : OvfMode) (adcT : BitVec 20) (k : Calib) :
    let x : Int := adcT.toNat
    let d : Int := x / 16 - k.t1.toNat
    fineTemperature m x k = (do
      let p ← narrow m 32 ((x / 8 - 2 * k.t1.toNat) * k.t2.toInt)
      let sq ← narrow m 32 (d * d)
      let q ← narrow m 32 (sq / 2 ^ 12 * k.t3.toInt)
      some (p / 2 ^ 11 + q / 2 ^ 14)) := by
  intro x d
  have h32 : 0 < 32 := by decide
  have hx := adcT.isLt
  have ht1 := k.t1.isLt
  have ha : x / 2 ^ 3 - k.t1.toNat * 2 ^ 1 = x / 8 - 2 * k.t1.toNat := by omega
  simp (disch := omega) only [fineTemperature, opShl_of_fits, opSub_of_fits, some_bind_eq, asr_eq, ha]
  refine narrow_bind_congr h32 fun p hp => narrow_bind_congr h32 fun _ _ => narrow_bind_congr h32 fun q hq => ?_
  exact opAdd_of_fits h32 (by omega)

/-- The products shifted right by 11 and by 14 bound `tf` (R151). -/
theorem fineTemperature_range {m : OvfMode} {adcT : BitVec 20} {k : Calib} {tf : Int}
    (h : fineTemperature m adcT.toNat k = some tf) : FineRange tf := by
  have h32 : 0 < 32 := by decide
  rw [fineTemperature_eq] at h
  obtain ⟨p, hp, h⟩ := Option.bind_eq_some_iff.mp h
  obtain ⟨sq, -, h⟩ := Option.bind_eq_some_iff.mp h
  obtain ⟨q, hq, h⟩ := Option.bind_eq_some_iff.mp h
  cases h
  have hpw := fits_of_narrow h32 hp
  have hqw := fits_of_narrow h32 hq
  constructor <;> omega

/-- The `t` line never leaves s32 (R151). -/
theorem temperatureOf_eq (m : OvfMode) {tf : Int} (h : FineRange tf) : temperatureOf m tf = some ((5 * tf + 128) / 256) := by
  have h32 : 0 < 32 := by decide
  obtain ⟨hlo, hhi⟩ := h
  simp (disch := omega) only [temperatureOf, opMul_of_fits, opAdd_of_fits, some_bind_eq, asr_eq, Int.mul_comm tf 5]
  rfl

theorem compT_eq (m : OvfMode) (adcT : BitVec 20) (k : Calib) :
    compT m adcT.toNat k = (fineTemperature m adcT.toNat k).map fun tf => (tf, (5 * tf + 128) / 256) := by
  unfold compT
  cases h : fineTemperature m adcT.toNat k with
  | none => rfl
  | some tf => rw [some_bind_eq, temperatureOf_eq m (fineTemperature_range h)]; rfl

/-! ### The statements -/

/-- Settles O16: on the hardware each of the three products is wrapped. -/
theorem temperatureClosedForm : Obligations.TemperatureClosedForm := by
  unfold Obligations.TemperatureClosedForm
  intro adcT k x d tf
  rw [compT_eq, fineTemperature_eq]
  simp only [narrow_wrap, some_bind_eq, Option.map_some]
  rfl

/-- Settles O22: `t` is monotonic in `tf`, so the ends of CompT's range bound it. -/
theorem temperatureRanges : Obligations.TemperatureRanges := by
  unfold Obligations.TemperatureRanges
  intro m adcT k tf t h
  rw [compT_eq] at h
  obtain ⟨tf', hf, he⟩ := Option.map_eq_some_iff.mp h
  cases he
  obtain ⟨hlo, hhi⟩ := fineTemperature_range hf
  exact ⟨⟨hlo, hhi⟩, by omega, by omega⟩

/-- Settles O23: under `OVF_MODE = fault` each of the three products is tested, and nothing else stops CompT. -/
theorem temperatureOverflowSites : Obligations.TemperatureOverflowSites := by
  unfold Obligations.TemperatureOverflowSites
  intro adcT k x d s32
  have h32 : 0 < 32 := by decide
  rw [compT_eq, fineTemperature_eq, Option.map_eq_none_iff]
  simp only [narrow_fault_bind h32, ← ite_fits_and, ite_eq_right_iff, reduceCtorEq, imp_false]
  rfl

/-- Settles O24: `t` is the floor of `(5 * tf + 128) / 256`. -/
theorem temperatureRounding : Obligations.TemperatureRounding := by
  unfold Obligations.TemperatureRounding
  intro m tf h
  exact ⟨_, temperatureOf_eq m h, by omega, by omega⟩

end Sys2Proof.Proofs
end

section
/-! PROOF. CompP (43_pressure.md): the offset's range and the raw term (R174), the zero guard in either overflow mode (R171), and
the closed form on the hardware, where nested wraps collapse into one (R170, R172). -/

open Sys2Proof Sys2Proof.Machine Sys2Proof.Certificates

namespace Sys2Proof.Proofs

/-! ### A wrap inside a wrap -/

theorem wrap_add_wrap_left {w : Nat} (hw : 0 < w) (a b : Int) : wrap w (wrap w a + b) = wrap w (a + b) := by
  simp only [wrap_eq_toInt hw, BitVec.ofInt_add, BitVec.ofInt_toInt]

theorem wrap_mul_wrap_left {w : Nat} (hw : 0 < w) (a b : Int) : wrap w (wrap w a * b) = wrap w (a * b) := by
  simp only [wrap_eq_toInt hw, BitVec.ofInt_mul, BitVec.ofInt_toInt]

/-! ### The zero guard -/

/-- The guard is taken exactly where the denominator is 0. -/
theorem compP_guard {m : OvfMode} {adcP tf p : Int} {z : Bool} {k : Calib} (h : compP m adcP tf k = some (p, z)) :
    (z = true ↔ pressureDenominator m tf k = some 0) ∧ (z = true → p = 0) := by
  obtain ⟨off, ho, hrest⟩ := Option.bind_eq_some_iff.mp h
  obtain ⟨den, hd, -⟩ := Option.bind_eq_some_iff.mp hrest
  rw [compP_eq ho hd] at h
  rw [hd, Option.some_inj]
  split at h
  case isTrue h0 =>
    cases h
    simp [h0]
  case isFalse h0 =>
    obtain ⟨q, -, hq⟩ := Option.map_eq_some_iff.mp h
    cases hq
    simp [h0]

theorem pressureDenominator_of_p1_eq_zero (m : OvfMode) {tf : Int} (h : FineRange tf) {k : Calib} (hp1 : k.p1 = 0) :
    pressureDenominator m tf k = some 0 := by
  have hprod : denominatorProduct tf k = 0 := by simp [denominatorProduct, hp1]
  rw [pressureDenominator_eq m h, hprod, narrow_of_fits m (by decide) (by decide)]
  rfl

/-- On the hardware the product is wrapped (R170, R174). -/
theorem pressureDenominator_wrap_eq {tf : Int} (h : FineRange tf) (k : Calib) :
    pressureDenominator .wrap tf k = some (wrap 64 (denominatorProduct tf k) / 2 ^ 33) := by
  rw [pressureDenominator_eq .wrap h, narrow_wrap, Option.map_some]

/-- The floor of `n / 2 ^ 33` is 0 exactly for `n` in [0, 2^33 − 1] (R171). -/
theorem pressureDenominator_wrap_eq_zero_iff {tf : Int} (h : FineRange tf) (k : Calib) :
    pressureDenominator .wrap tf k = some 0 ↔
      0 ≤ wrap 64 (denominatorProduct tf k) ∧ wrap 64 (denominatorProduct tf k) < 2 ^ 33 := by
  rw [pressureDenominator_wrap_eq h, Option.some_inj]
  constructor
  · omega
  · omega

/-! ### The offset -/

/-- The interval of R174: `v`, of magnitude at most 1307648, bounds each of the offset's three terms. -/
theorem pressureOffset_natAbs_lt_two_pow_56 {tf : Int} (h : FineRange tf) (k : Calib) :
    ((tf - 128000) * (tf - 128000) * k.p6.toInt + (tf - 128000) * k.p5.toInt * 2 ^ 17 + k.p4.toInt * 2 ^ 35).natAbs < 2 ^ 56 := by
  have hv := natAbs_sub_128000_le h
  have h6 := natAbs_mul_le (natAbs_mul_le hv hv) (natAbs_toInt16_le k.p6)
  have h5 := natAbs_mul_le hv (natAbs_toInt16_le k.p5)
  have h4 := natAbs_toInt16_le k.p4
  omega

/-! ### The lines from the division on -/

/-- On the hardware each operation that can leave s64 is wrapped, and the sums and products of three terms once (R170, R172). -/
theorem pressureQuotient_wrap_eq (adcP : BitVec 20) {off : Int} (hoff : off.natAbs < 2 ^ 60) (den : Int) (k : Calib) :
    let q : Int := wrap 64 ((wrap 64 (((1048576 - adcP.toNat) * 2 ^ 31 - off) * 3125)).tdiv den)
    let a : Int := wrap 64 (k.p9.toInt * (q / 2 ^ 13) * (q / 2 ^ 13)) / 2 ^ 25
    let b : Int := wrap 64 (k.p8.toInt * q) / 2 ^ 19
    pressureQuotient .wrap adcP.toNat den off k = some (wrap 64 (wrap 64 (q + a + b) / 2 ^ 8 + k.p7.toInt * 2 ^ 4)) := by
  intro q a b
  have h64 : 0 < 64 := by decide
  have hadc := adcP.isLt
  have h7 := natAbs_toInt16_le k.p7
  simp (disch := omega) only [pressureQuotient, opSub_of_fits, opShl_of_fits, some_bind_eq]
  simp only [opAdd, opMul, opDiv, narrow_wrap, some_bind_eq, asr_eq, wrap_mul_wrap_left h64, wrap_add_wrap_left h64]
  rfl

/-! ### The statements -/

/-- Settles O17: the offset is exact, and the denominator and the lines from the division on are in their wrapped forms. -/
theorem pressureClosedForm : Obligations.PressureClosedForm := by
  unfold Obligations.PressureClosedForm
  intro adcP tf k h v off den q a b
  rw [compP_eq (pressureOffset_eq .wrap h k) (pressureDenominator_wrap_eq h k),
    pressureQuotient_wrap_eq adcP (pressureOffset_natAbs_lt h k)]
  rfl

/-- Settles O25: the guard tests the denominator, which is the floor of the wrapped product over 2^33. -/
theorem pressureZeroGuard : Obligations.PressureZeroGuard := by
  unfold Obligations.PressureZeroGuard
  intro m adcP tf k h
  refine ⟨fun p z hP => compP_guard hP, fun hp1 => ?_, ?_⟩
  · rw [compP_eq (pressureOffset_eq m h k) (pressureDenominator_of_p1_eq_zero m h hp1), if_pos rfl]
  · exact pressureDenominator_wrap_eq_zero_iff h k

/-- Settles O27: the offset has its exact value in either mode, and `adcP` has 20 bits. -/
theorem pressureOffsetNeverOverflows : Obligations.PressureOffsetNeverOverflows := by
  unfold Obligations.PressureOffsetNeverOverflows
  intro m adcP tf k h
  have hoff := pressureOffset_natAbs_lt_two_pow_56 h k
  have hadc := adcP.isLt
  refine ⟨⟨_, pressureOffset_eq m h k, rfl, ?_, ?_⟩, _, opSub_of_fits (by decide) ?_, ?_, ?_⟩
  · omega
  · omega
  · omega
  · omega
  · omega

end Sys2Proof.Proofs
end

section
/-! PROOF. CompH (44_humidity.md): its lines on the hardware, with one wrap before each right shift (R190, R193), the range of the
`x` line in either overflow mode (R193), and `H2 = 0` (R192). -/

open Sys2Proof Sys2Proof.Machine Sys2Proof.Certificates

namespace Sys2Proof.Proofs

theorem wrap_sub_wrap {w : Nat} (hw : 0 < w) (a b : Int) : wrap w (wrap w a - wrap w b) = wrap w (a - b) := by
  simp only [wrap_eq_toInt hw, sub_eq_add_neg, BitVec.ofInt_add, BitVec.ofInt_neg, BitVec.ofInt_toInt]

/-! ### The lines of CompH -/

/-- On the hardware the sums of the `x` line wrap once (R190, R194). -/
theorem humidityX_wrap_eq (adcH : BitVec 16) (v : Int) (k : Calib) :
    humidityX .wrap adcH.toNat v k =
      some (wrap 32 (adcH.toNat * 2 ^ 14 - k.h4.toInt * 2 ^ 20 - k.h5.toInt * v + 16384) / 2 ^ 15) := by
  have h32 : 0 < 32 := by decide
  have hadc := adcH.isLt
  have h4 := fits_toInt k.h4
  simp (disch := omega) only [humidityX, opShl_of_fits, some_bind_eq]
  simp only [opSub, opMul, opAdd, narrow_wrap, some_bind_eq, asr_eq]
  rw [wrap_sub_wrap h32, wrap_add_wrap_left h32]
  rfl

/-- The operations of the `y` line before the product of its two factors never leave s32, and neither does the addition of
2097152 (R193). -/
theorem humidityY_wrap_eq {v : Int} (hv : v.natAbs ≤ 1256448) (k : Calib) :
    let g : Int := wrap 32 (v * k.h6.toInt / 2 ^ 10 * (v * k.h3.toNat / 2 ^ 11 + 32768)) / 2 ^ 10
    humidityY .wrap v k = some (wrap 32 ((g + 2097152) * k.h2.toInt + 8192) / 2 ^ 14) := by
  intro g
  have h32 : 0 < 32 := by decide
  have h6 : (v * k.h6.toInt).natAbs ≤ 1256448 * 2 ^ 7 := natAbs_mul_le hv (by have := fits_toInt k.h6; omega)
  have h3 : (v * (k.h3.toNat : Int)).natAbs ≤ 1256448 * 2 ^ 8 := natAbs_mul_le hv (by have := k.h3.isLt; omega)
  have hg : opAdd .wrap 32 g 2097152 = some (g + 2097152) := by
    have hp := fits_of_narrow h32 (narrow_wrap 32 (v * k.h6.toInt / 2 ^ 10 * (v * k.h3.toNat / 2 ^ 11 + 32768)))
    exact opAdd_of_fits h32 (by omega)
  simp (disch := omega) only [humidityY, opMul_of_fits (a := v), opAdd_of_fits (b := 32768), some_bind_eq, asr_eq]
  simp only [opMul, narrow_wrap, some_bind_eq]
  rw [hg]
  simp only [opAdd, narrow_wrap, some_bind_eq, wrap_add_wrap_left h32]
  rfl

/-- CompH on the hardware, once the `x` and `y` lines have answered (R190, R191). -/
theorem compH_wrap_eq {adcH tf x y : Int} {k : Calib} (hx : humidityX .wrap adcH (wrap 32 (tf - 76800)) k = some x)
    (hy : humidityY .wrap (wrap 32 (tf - 76800)) k = some y) :
    let w : Int := wrap 32 (x * y)
    let sq : Int := wrap 32 (w / 2 ^ 15 * (w / 2 ^ 15)) / 2 ^ 7
    let u : Int := wrap 32 (w - wrap 32 (sq * k.h1.toNat) / 2 ^ 4)
    compH .wrap adcH tf k = some (max 0 (min u 419430400) / 2 ^ 12) := by
  intro w sq u
  simp only [compH, humidityUnclamped, opSub, opMul, narrow_wrap, some_bind_eq, hx, hy, clampHumidity_eq, asr_eq]
  rfl

/-! ### Ranges -/

/-- `x` is an s32 value shifted right by 15 (R193). -/
theorem humidityX_inWidth {m : OvfMode} {adcH v x : Int} {k : Calib} (h : humidityX m adcH v k = some x) : InWidth 17 x := by
  unfold humidityX at h
  simp only [Option.bind_eq_bind, Option.bind_eq_some_iff] at h
  obtain ⟨_, -, _, -, _, -, _, -, _, -, s, hadd, hx⟩ := h
  cases hx
  exact asr_inWidth (w := 32) (n := 15) (by decide) (narrow_spec (by decide) hadd).1

/-- `(0 + 8192) >> 14 = 0` (R192). -/
theorem humidityY_of_h2_eq_zero (v : Int) {k : Calib} (h2 : k.h2 = 0) : humidityY .wrap v k = some 0 := by
  have hz : k.h2.toInt = 0 := by rw [h2]; rfl
  simp only [humidityY, opMul, opAdd, narrow_wrap, some_bind_eq, hz, mul_zero]
  rfl

/-- With `y = 0` the product, its correction and the clamped value are 0 (R192). -/
theorem compH_of_h2_eq_zero (adcH tf : Int) {k : Calib} (h2 : k.h2 = 0) : compH .wrap adcH tf k = some 0 := by
  obtain ⟨x, hx⟩ : ∃ x, humidityX .wrap adcH (wrap 32 (tf - 76800)) k = some x := ⟨_, rfl⟩
  have h0 : wrap 32 0 = 0 := by decide
  rw [compH_wrap_eq hx (humidityY_of_h2_eq_zero _ h2)]
  simp [h0]

/-! ### The statements -/

/-- Settles O18: in CompT's range `tf - 76800` fits, and each line of CompH is in its wrapped form. -/
theorem humidityClosedForm : Obligations.HumidityClosedForm := by
  unfold Obligations.HumidityClosedForm
  intro adcH tf k h v x g y w sq u
  obtain ⟨hlo, hhi⟩ := h
  have hv : wrap 32 (tf - 76800) = v := wrap_of_inWidth (by decide) ⟨by omega, by omega⟩
  exact compH_wrap_eq (hv.symm ▸ humidityX_wrap_eq adcH v k) (hv.symm ▸ humidityY_wrap_eq (by omega) k)

/-- Settles O28: the clamps bound `h`, `H2 = 0` makes `y` 0, and `x` has 17 bits. -/
theorem humidityClamped : Obligations.HumidityClamped := by
  unfold Obligations.HumidityClamped
  refine ⟨fun m adcH tf h k hH => compH_range hH, fun adcH tf k h2 => compH_of_h2_eq_zero adcH tf h2, fun m adcH v x k hx => ?_⟩
  obtain ⟨hlo, hhi⟩ := humidityX_inWidth hx
  constructor
  · omega
  · omega

end Sys2Proof.Proofs
end

section
/-! PROOF. HUM_PCT is exact (45_scaling.md R214): `h` has at most 17 bits and 1024 is a power of 2, so neither the quotient nor
the narrowing rounds, and the clamps never act. -/

open Sys2Proof Sys2Proof.Machine Sys2Proof.Certificates

namespace Sys2Proof.Proofs

/-! ### Values that are exact -/

/-- A format that holds the 17 bits of `n` holds `n / 1024`. -/
theorem units_mul_1024_of_rounds {f : FloatFmt} {n m : Nat} (hr : Rounds f (n * 2 ^ f.scale) 1024 m)
    (hn : n ≤ 2 * 2 ^ (f.prec - 1)) (hlo : 10 ≤ f.scale) (hhi : f.scale - 10 + 4 ≤ 2 ^ f.expBits) :
    f.units m * 1024 = n * 2 ^ f.scale := by
  have hsplit : 2 ^ f.scale = 2 ^ (f.scale - 10) * 1024 := (Nat.pow_sub_mul_pow 2 hlo).symm
  rw [units_eq_of_rounds hr (by decide) hn hhi (by rw [hsplit, Nat.mul_assoc]), hsplit, Nat.mul_assoc]

/-- The bit pattern of a finite value with the sign bit 0. -/
theorem packFlt_nonneg {f : FloatFmt} {w : Nat} (hw : 0 < w) (hf : f.infinity ≤ 2 ^ (w - 1)) {x : Flt} (hx : Finite f x)
    (hneg : x.neg = false) : (packFlt w x).msb = false ∧ (unpackFlt (packFlt w x)).mag = x.mag := by
  have hu := unpackFlt_packFlt hw (hx.trans_le hf)
  exact ⟨(congrArg Flt.neg hu).trans hneg, congrArg Flt.mag hu⟩

/-! ### The clamps -/

theorem key_of_nonneg {x : Flt} (h : x.neg = false) : x.key = x.mag := by simp [Flt.key, h]

theorem fmax_zero_of_nonneg {x : Flt} (h : x.neg = false) : fmax x (f64Const 0 1) = x := by
  have h0 : (f64Const 0 1).key = 0 := rfl
  rw [fmax, h0, key_of_nonneg h, if_neg (by omega)]

theorem fmin_of_units_le {x y : Flt} (hx : x.neg = false) (hy : y.neg = false)
    (h : fmt64.units x.mag ≤ fmt64.units y.mag) : fmin x y = x := by
  have hm : x.mag ≤ y.mag := (units_strictMono fmt64).le_iff_le.mp h
  rw [fmin, key_of_nonneg hx, key_of_nonneg hy, if_neg (by omega)]

/-! ### HUM_PCT -/

/-- The quotient that R214 clamps. -/
def humQuotient (n : Nat) : Flt := f64Div (f64OfInt n) (f64Const 1024 1)

theorem scaleHum_eq_clamped (fmt : ResultFmt) (n : Nat) :
    scaleHum fmt n = narrowFlt fmt (fmin (fmax (humQuotient n) (f64Const 0 1)) (f64Const 100 1)) := rfl

theorem humQuotient_neg (n : Nat) : (humQuotient n).neg = false := by
  rw [humQuotient, f64Div_neg_of_pos rfl]
  exact decide_eq_false (Int.natCast_nonneg n).not_gt

theorem humQuotient_rounds {n : Nat} (hn : n ≤ 102400) :
    Rounds fmt64 (n * 2 ^ fmt64.scale) 1024 (humQuotient n).mag :=
  f64Div_1024_rounds (h := n) (by omega)

theorem humQuotient_units {n : Nat} (hn : n ≤ 102400) : fmt64.units (humQuotient n).mag * 1024 = n * 2 ^ fmt64.scale :=
  units_mul_1024_of_rounds (humQuotient_rounds hn) (hn.trans (by decide)) (by decide) (by decide)

theorem humQuotient_units_le_hundred {n : Nat} (hn : n ≤ 102400) :
    fmt64.units (humQuotient n).mag ≤ fmt64.units (f64Const 100 1).mag := by
  refine Nat.le_of_mul_le_mul_right (c := 1024) ?_ (by decide)
  rw [humQuotient_units hn, f64Const_units (by decide), Nat.mul_right_comm]
  exact Nat.mul_le_mul_right _ hn

/-- The clamps of R214 leave the quotient as it is. -/
theorem scaleHum_eq_narrowFlt (fmt : ResultFmt) {n : Nat} (hn : n ≤ 102400) :
    scaleHum fmt n = narrowFlt fmt (humQuotient n) := by
  rw [scaleHum_eq_clamped, fmax_zero_of_nonneg (humQuotient_neg n),
    fmin_of_units_le (humQuotient_neg n) rfl (humQuotient_units_le_hundred hn)]

/-- Narrowed to binary32, the quotient is `n / 1024` rounded once, as the quotient is exact. -/
theorem convert_humQuotient_rounds {n : Nat} (hn : n ≤ 102400) :
    Rounds fmt32 (n * 2 ^ fmt32.scale) 1024 (convert fmt64 fmt32 (humQuotient n)).mag := by
  have hq := humQuotient_units hn
  have hle : fmt64.units (humQuotient n).mag ≤ 2 ^ 1100 := by
    refine (humQuotient_units_le_hundred hn).trans ?_
    rw [f64Const_units (by decide)]
    exact mul_two_pow_le (i := 7) (by decide) (by decide)
  refine rounds_of_ratio (by positivity) (by decide) ?_
    (convert_rounds (K := 276) fmtWf_fmt32 (by decide) (narrow_bound hle (by decide)))
  rw [Nat.mul_right_comm, hq, Nat.mul_right_comm]

/-- The bit pattern of a finite value that is exactly `n / 1024`. -/
theorem packFlt_of_units_mul_1024 {f : FloatFmt} {w n : Nat} (hw : 0 < w) (hf : f.infinity ≤ 2 ^ (w - 1)) {x : Flt}
    (hfin : Finite f x) (hneg : x.neg = false) (hx : f.units x.mag * 1024 = n * 2 ^ f.scale) :
    (packFlt w x).msb = false ∧ (f.units (unpackFlt (packFlt w x)).mag : Int) * 1024 = n * 2 ^ f.scale := by
  obtain ⟨hmsb, hmag⟩ := packFlt_nonneg hw hf hfin hneg
  rw [hmag]
  exact ⟨hmsb, by exact_mod_cast hx⟩

/-- Settles O34: the quotient is exact and in [0, 100], and binary32 holds it too. -/
theorem humPctExact : Obligations.HumPctExact := by
  unfold Obligations.HumPctExact
  intro h hlo hhi
  obtain ⟨n, rfl⟩ := Int.eq_ofNat_of_zero_le hlo
  have hn : n ≤ 102400 := by omega
  have h64 := humQuotient_rounds hn
  have h32 := convert_humQuotient_rounds hn
  have hu32 := units_mul_1024_of_rounds h32 (hn.trans (by decide)) (by decide) (by decide)
  refine ⟨⟨_, scaleHum_eq_narrowFlt .binary64 hn, ?_⟩, _, scaleHum_eq_narrowFlt .binary32 hn, ?_⟩
  · exact packFlt_of_units_mul_1024 (by decide) (by decide) h64.1.1 (humQuotient_neg n) (humQuotient_units hn)
  · exact packFlt_of_units_mul_1024 (by decide) (by decide) h32.1.1 (humQuotient_neg n) hu32

end Sys2Proof.Proofs
end

section
/-! PROOF. Where the host driver goes (46_host_protocol.md R231 to R242): its procedures as a graph whose edges carry the primitive
calls made, and what follows from the graph for every draw (R248): the discipline of the bus lock (R235), the end of every
operation (R248) and its latency (R246). -/

open Sys2Proof Sys2Proof.Machine Sys2Proof.Certificates

namespace Sys2Proof.Proofs

/-! ### The graph -/

/-- Where `Bringup(c)` starts: at its first probe, or at the return of NOT_FOUND where no attempt is allowed (R232). -/
inductive BringupStart (hp : HostParams) (c : Candidate) : Task → Prop where
  | probe {n : Nat} (h : hp.probeAttempts = n + 1) : BringupStart hp c (.txn (.probe c n) .acquire)
  | noAttempt : BringupStart hp c .idle

/-- Where the driver goes once `Bringup(c)` has failed (R231). -/
inductive CandidateFailure (hp : HostParams) : Candidate → Task → Prop where
  | primary {t : Task} (h : BringupStart hp .secondary t) : CandidateFailure hp .primary t
  | secondary : CandidateFailure hp .secondary .idle

/-- Where the driver goes from each transaction once it has ended (R232 to R234, R236, R237, R240, R241). -/
inductive GoesOn (hp : HostParams) : Site → Task → Prop where
  | probed {c left} : GoesOn hp (.probe c left) (.attach c)
  | probeRetried {c n} : GoesOn hp (.probe c (n + 1)) (.probeDelay c n)
  | probeFailed {c t} (h : CandidateFailure hp c t) : GoesOn hp (.probe c 0) t
  | identified {c left} : GoesOn hp (.chipId c left) (.txn (.calA c) .acquire)
  | chipIdRetried {c n} : GoesOn hp (.chipId c (n + 1)) (.chipIdDelay c n)
  | chipIdFailed {c} : GoesOn hp (.chipId c 0) (.abandon c)
  | calARead {c a} : GoesOn hp (.calA c) (.txn (.calB c a) .acquire)
  | calAFailed {c} : GoesOn hp (.calA c) (.abandon c)
  | calBRead {c a b} : GoesOn hp (.calB c a) (.txn (.softReset c a b) .acquire)
  | calBFailed {c a} : GoesOn hp (.calB c a) (.abandon c)
  | softReset {c a b} : GoesOn hp (.softReset c a b) (.settle c a b)
  | softResetFailed {c a b} : GoesOn hp (.softReset c a b) (.abandon c)
  | ctrlHum {c a b} : GoesOn hp (.ctrlHum c a b) (.txn (.ctrlMeas c a b) .acquire)
  | ctrlHumFailed {c a b} : GoesOn hp (.ctrlHum c a b) (.abandon c)
  | ctrlMeas {c a b} : GoesOn hp (.ctrlMeas c a b) (.txn (.config c a b) .acquire)
  | ctrlMeasFailed {c a b} : GoesOn hp (.ctrlMeas c a b) (.abandon c)
  | config {c a b} : GoesOn hp (.config c a b) (.load c a b)
  | configFailed {c a b} : GoesOn hp (.config c a b) (.abandon c)
  | ready : GoesOn hp .status (.txn .data .acquire)
  | converting : GoesOn hp .status .statusWait
  | statusFailed {r} : GoesOn hp .status (.drop r)
  | dataRead {r} : GoesOn hp .data (.measure r)
  | dataFailed {r} : GoesOn hp .data (.drop r)
  | userRead {reg n} : GoesOn hp (.userRead reg n) .idle
  | userWrite {reg v} : GoesOn hp (.userWrite reg v) .idle

/-- A step of a driver under way: the point it was at, the primitive calls it made, the point it came to (R248). -/
inductive DriverMove (hp : HostParams) : Task → List PrimCall → Task → Prop where
  | badArgument {site t} (h : GoesOn hp site t) : DriverMove hp (.txn site .acquire) [] t
  | refused {site t} (h : GoesOn hp site t) :
      DriverMove hp (.txn site .acquire) [.tryAcquire hp.lockTimeoutMs false] t
  | acquired {site} : DriverMove hp (.txn site .acquire) [.tryAcquire hp.lockTimeoutMs true] (.txn site .transfer)
  | transferred {site handle r} :
      DriverMove hp (.txn site .transfer) [site.op.primCall hp handle] (.txn site (.release r))
  | released {site r t} (h : GoesOn hp site t) : DriverMove hp (.txn site (.release r)) [.release] t
  | probeDelay {c n} : DriverMove hp (.probeDelay c n) [.sleep hp.probeRetryDelayMs] (.txn (.probe c n) .acquire)
  | attach {c n} (h : hp.chipIdAttempts = n + 1) :
      DriverMove hp (.attach c) [.attach c.addr Config.busSpeed Config.attachParams] (.txn (.chipId c n) .acquire)
  | attachOnly {c} :
      DriverMove hp (.attach c) [.attach c.addr Config.busSpeed Config.attachParams] (.abandon c)
  | chipIdDelay {c n} : DriverMove hp (.chipIdDelay c n) [.sleep hp.chipIdRetryDelayMs] (.txn (.chipId c n) .acquire)
  | abandon {c handle t} (h : CandidateFailure hp c t) : DriverMove hp (.abandon c) [.detach handle] t
  | settle {c a b} : DriverMove hp (.settle c a b) [.sleep hp.resetSettleMs] (.txn (.ctrlHum c a b) .acquire)
  | load {c a b} : DriverMove hp (.load c a b) [.cmd 0x01] (.loaded c)
  | loaded {c} : DriverMove hp (.loaded c) [] .idle
  | statusWait : DriverMove hp .statusWait [.sleep hp.statusWaitMs] (.txn .data .acquire)
  | drop {r handle} : DriverMove hp (.drop r) [.detach handle] (.inval r)
  | inval {r} : DriverMove hp (.inval r) [.cmd 0x03] (.released r)
  | returned {r} : DriverMove hp (.released r) [] .idle
  | measure {r} : DriverMove hp (.measure r) [.cmd 0x02] .collect
  | collect : DriverMove hp .collect [] .idle

/-! ### The driver moves along the graph -/

theorem bringup_start (s : State) (c : Candidate) : BringupStart s.hostPar c (s.bringup c).driver.task := by
  unfold State.bringup
  split
  · exact .noAttempt
  · exact .probe ‹_›

theorem nextCandidate_failure (s : State) (c : Candidate) : CandidateFailure s.hostPar c (s.nextCandidate c).driver.task := by
  cases c with
  | primary => exact .primary (bringup_start s .secondary)
  | secondary => exact .secondary

theorem afterProbe_goesOn (s : State) (c : Candidate) (left : Nat) (r : TxnResult) :
    GoesOn s.hostPar (.probe c left) (s.afterProbe c left r).driver.task := by
  cases r with
  | ok => exact .probed
  | err =>
    cases left with
    | zero => exact .probeFailed (nextCandidate_failure s c)
    | succ n => exact .probeRetried

theorem afterChipId_goesOn (s : State) (c : Candidate) (left : Nat) (r : TxnResult) :
    GoesOn s.hostPar (.chipId c left) (s.afterChipId c left r).driver.task := by
  unfold State.afterChipId
  split
  · exact .identified
  · cases left with
    | zero => exact .chipIdFailed
    | succ n => exact .chipIdRetried

theorem afterStatus_goesOn (s : State) (r : TxnResult) : GoesOn s.hostPar .status (s.afterStatus r).driver.task := by
  unfold State.afterStatus
  split
  · split
    · exact .ready
    · exact .converting
  · exact .statusFailed

theorem resume_goesOn (s : State) (r : TxnResult) (site : Site) : GoesOn s.hostPar site (s.resume r site).driver.task := by
  cases site with
  | probe c left => exact afterProbe_goesOn s c left r
  | chipId c left => exact afterChipId_goesOn s c left r
  | status => exact afterStatus_goesOn s r
  | calA => cases r with | ok => exact .calARead | err => exact .calAFailed
  | calB => cases r with | ok => exact .calBRead | err => exact .calBFailed
  | softReset => cases r with | ok => exact .softReset | err => exact .softResetFailed
  | ctrlHum => cases r with | ok => exact .ctrlHum | err => exact .ctrlHumFailed
  | ctrlMeas => cases r with | ok => exact .ctrlMeas | err => exact .ctrlMeasFailed
  | config => cases r with | ok => exact .config | err => exact .configFailed
  | data => cases r with | ok => exact .dataRead | err => exact .dataFailed
  | userRead => cases r <;> exact .userRead
  | userWrite => cases r <;> exact .userWrite

theorem trace_of_onlyDriver {s t : State} (h : OnlyDriver s t) : t.trace = s.trace := by
  unfold OnlyDriver at h
  rw [h]

theorem resume_trace (s : State) (r : TxnResult) (site : Site) : (s.resume r site).trace = s.trace :=
  trace_of_onlyDriver (OnlyDriver.resume s r site)

/-- The driver went from `s` to `t` along an edge of the graph, with the calls of the edge recorded. -/
def MovesTo (s t : State) : Prop :=
  ∃ calls, DriverMove s.hostPar s.driver.task calls t.driver.task ∧ t.trace = calls ++ s.trace

theorem movesTo_of_move {s t : State} {task : Task} {calls : List PrimCall} (ht : s.driver.task = task)
    (hmove : DriverMove s.hostPar task calls t.driver.task) (htrace : t.trace = calls ++ s.trace) : MovesTo s t :=
  ⟨calls, ht ▸ hmove, htrace⟩

/-- An idle driver does what the caller asks, or waits. -/
theorem driverStep_idle {s : State} {call : Option Call} {ok : Bool} {handle : Handle} {bytes : List Byte}
    (hidle : s.driver.task = .idle) : driverStep call ok handle bytes s = call.elim s (startCall s) := by
  unfold driverStep
  rw [hidle]
  cases call <;> rfl

theorem txnStep_movesTo {s : State} {site : Site} {stage : TxnStage} (ok : Bool) (bytes : List Byte)
    (ht : s.driver.task = .txn site stage) : MovesTo s (txnStep ok bytes site s stage) := by
  cases stage with
  | acquire =>
    simp only [txnStep]
    split
    · exact movesTo_of_move ht (.badArgument (resume_goesOn s _ site)) (resume_trace s _ site)
    · split
      · exact movesTo_of_move ht .acquired rfl
      · exact movesTo_of_move ht (.refused (resume_goesOn (s.call _) _ site)) (resume_trace (s.call _) _ site)
  | transfer => exact movesTo_of_move ht .transferred rfl
  | release r => exact movesTo_of_move ht (.released (resume_goesOn (s.call _) r site)) (resume_trace (s.call _) r site)

theorem attachStep_movesTo {s : State} {c : Candidate} (handle : Handle) (ht : s.driver.task = .attach c) :
    MovesTo s (attachStep handle c s) := by
  simp only [attachStep]
  split
  · exact movesTo_of_move ht .attachOnly rfl
  · exact movesTo_of_move ht (.attach ‹_›) rfl

theorem collect_movesTo {s : State} (ht : s.driver.task = .collect) : MovesTo s (collect s) := by
  rcases collect_cases s with ⟨r, h⟩ | ⟨r, -, h⟩ <;> rw [h] <;> exact movesTo_of_move ht .collect rfl

/-- Every step of a driver under way is an edge of the graph. -/
theorem driverStep_movesTo {s : State} (call : Option Call) (ok : Bool) (handle : Handle) (bytes : List Byte)
    (hidle : s.driver.task ≠ .idle) : MovesTo s (driverStep call ok handle bytes s) := by
  unfold driverStep
  cases ht : s.driver.task with
  | idle => exact absurd ht hidle
  | txn site stage => exact txnStep_movesTo ok bytes ht
  | attach c => exact attachStep_movesTo handle ht
  | collect => exact collect_movesTo ht
  | abandon c =>
    exact movesTo_of_move ht (.abandon (nextCandidate_failure ((s.call _).setHandle none) c))
      (trace_of_onlyDriver (OnlyDriver.nextCandidate ((s.call _).setHandle none) c))
  | probeDelay c n => exact movesTo_of_move ht .probeDelay rfl
  | chipIdDelay c n => exact movesTo_of_move ht .chipIdDelay rfl
  | settle c a b => exact movesTo_of_move ht .settle rfl
  | load c a b => exact movesTo_of_move ht .load rfl
  | loaded c => exact movesTo_of_move ht .loaded rfl
  | statusWait => exact movesTo_of_move ht .statusWait rfl
  | drop r => exact movesTo_of_move ht .drop rfl
  | inval r => exact movesTo_of_move ht .inval rfl
  | released r => exact movesTo_of_move ht .returned rfl
  | measure r => exact movesTo_of_move ht .measure rfl

/-! ### The bus lock -/

theorem BringupStart.lockPhase_eq {hp : HostParams} {c : Candidate} {t : Task} (h : BringupStart hp c t) :
    t.lockPhase = .free := by cases h <;> rfl

theorem CandidateFailure.lockPhase_eq {hp : HostParams} {c : Candidate} {t : Task} (h : CandidateFailure hp c t) :
    t.lockPhase = .free := by
  cases h with
  | primary h => exact h.lockPhase_eq
  | secondary => rfl

/-- A transaction that has ended does not hold the lock. -/
theorem GoesOn.lockPhase_eq {hp : HostParams} {site : Site} {t : Task} (h : GoesOn hp site t) : t.lockPhase = .free := by
  cases h with
  | probeFailed h => exact h.lockPhase_eq
  | _ => rfl

/-- Each kind of transfer is allowed once the lock is held, and uses the hold. -/
theorem next_primCall (hp : HostParams) (handle : Option Handle) (op : BusOp) :
    LockPhase.next .held (op.primCall hp handle) = some .used := by cases op <;> rfl

/-- The calls of an edge are allowed in the phase it starts in, and lead to the phase it ends in. -/
theorem DriverMove.lockPhase_append {hp : HostParams} {t t' : Task} {calls trace : List PrimCall} (h : DriverMove hp t calls t')
    (htrace : Machine.lockPhase trace = some t.lockPhase) : Machine.lockPhase (calls ++ trace) = some t'.lockPhase := by
  cases h with
  | badArgument h => rw [h.lockPhase_eq]; exact htrace
  | refused h => rw [h.lockPhase_eq]; simp [Machine.lockPhase, htrace, Task.lockPhase, LockPhase.next]
  | released h => rw [h.lockPhase_eq]; simp [Machine.lockPhase, htrace, Task.lockPhase, LockPhase.next]
  | abandon h => rw [h.lockPhase_eq]; simp [Machine.lockPhase, htrace, Task.lockPhase, LockPhase.next]
  | transferred => simp [Machine.lockPhase, htrace, Task.lockPhase, next_primCall]
  | loaded | returned | collect => exact htrace
  | _ => simp [Machine.lockPhase, htrace, Task.lockPhase, LockPhase.next]

theorem startInitialize_lockPhase (bus : Bool) (s : State) : (startInitialize bus s).driver.task.lockPhase = .free := by
  unfold startInitialize
  split
  · split
    · rfl
    · exact (bringup_start s .primary).lockPhase_eq
  · rfl

theorem startRead_lockPhase (out : Bool) (s : State) : (startRead out s).driver.task.lockPhase = .free := by
  unfold startRead
  split
  · split <;> rfl
  · rfl

theorem startRelease_lockPhase (s : State) : (startRelease s).driver.task.lockPhase = .free := by
  unfold startRelease
  split <;> rfl

/-- The read of a register ends at once and calls no primitive (R30). -/
theorem readRegister_idle (r : Reg) (s : State) :
    (readRegister r s).driver.task = .idle ∧ (readRegister r s).trace = s.trace := by
  unfold readRegister
  split <;> exact ⟨rfl, rfl⟩

/-- An idle driver that is asked for something starts without the lock; it makes no call but the caller's own command. -/
theorem startCall_lockDisciplined {s : State} (c : Call) (hidle : s.driver.task = .idle) (hs : s.lockDisciplined) :
    (startCall s c).lockDisciplined := by
  unfold State.lockDisciplined at hs ⊢
  have hfree : Machine.lockPhase s.trace = some .free := by rw [hs, hidle]; rfl
  cases c with
  | init bus =>
    rw [startCall, startInitialize_lockPhase, trace_of_onlyDriver (OnlyDriver.startInitialize bus s), hfree]
  | read out => rw [startCall, startRead_lockPhase, trace_of_onlyDriver (OnlyDriver.startRead out s), hfree]
  | release => rw [startCall, startRelease_lockPhase, trace_of_onlyDriver (OnlyDriver.startRelease s), hfree]
  | readReg r =>
    obtain ⟨htask, htrace⟩ := readRegister_idle r s
    rw [startCall, htask, htrace]
    exact hfree
  | cmd op => simp [startCall, Machine.lockPhase, hfree, hidle, Task.lockPhase, LockPhase.next]
  | isAvailable | busRead | busWrite => exact hfree
  | driveCalA | driveCalB | driveRaw => exact hs

theorem driverStep_lockDisciplined {s : State} (call : Option Call) (ok : Bool) (handle : Handle) (bytes : List Byte)
    (hs : s.lockDisciplined) : (driverStep call ok handle bytes s).lockDisciplined := by
  by_cases hidle : s.driver.task = .idle
  · rw [driverStep_idle hidle]
    cases call with
    | none => exact hs
    | some c => exact startCall_lockDisciplined c hidle hs
  · obtain ⟨calls, hmove, htrace⟩ := driverStep_movesTo call ok handle bytes hidle
    unfold State.lockDisciplined
    rw [htrace]
    exact hmove.lockPhase_append hs

/-- Settles O47: a step that is no edge of the driver's graph makes no call, and each edge keeps to the discipline. -/
theorem stepKeepsLockDiscipline : Obligations.StepKeepsLockDiscipline := by
  unfold Obligations.StepKeepsLockDiscipline
  intro s t hs h
  rcases step_cases h with ⟨op, -, hx⟩ | ⟨-, -, rfl⟩ | ⟨-, call, ok, handle, bytes, -, rfl⟩
  · rw [exec_frame hx]
    exact hs
  · simpa [State.lockDisciplined, State.resetCdp] using hs
  · exact driverStep_lockDisciplined call ok handle bytes (by simpa [State.lockDisciplined] using hs)

/-! ### The steps still to come -/

theorem txn_stepsLeft (hp : HostParams) (site : Site) (stage : TxnStage) :
    (Task.txn site stage).stepsLeft hp = site.stepsAfter hp + stage.stepsLeft := rfl

theorem BringupStart.stepsLeft_le {hp : HostParams} {c : Candidate} {t : Task} (h : BringupStart hp c t) :
    t.stepsLeft hp ≤ c.stepsAfter hp + 22 + 4 * hp.chipIdAttempts + 4 * hp.probeAttempts := by
  cases h with
  | probe h => simp only [Task.stepsLeft, Site.stepsAfter, TxnStage.stepsLeft]; omega
  | noAttempt => exact Nat.zero_le _

theorem CandidateFailure.stepsLeft_le {hp : HostParams} {c : Candidate} {t : Task} (h : CandidateFailure hp c t) :
    t.stepsLeft hp ≤ c.stepsAfter hp := by
  cases h with
  | primary h => have := h.stepsLeft_le; simp only [Candidate.stepsAfter] at this ⊢; omega
  | secondary => exact Nat.zero_le _

/-- What may follow a transaction is within the bound of its site. -/
theorem GoesOn.stepsLeft_le {hp : HostParams} {site : Site} {t : Task} (h : GoesOn hp site t) :
    t.stepsLeft hp ≤ site.stepsAfter hp := by
  cases h with
  | probeFailed h => have := h.stepsLeft_le; simp only [Site.stepsAfter]; omega
  | _ => simp only [Task.stepsLeft, Site.stepsAfter, TxnStage.stepsLeft]; omega

theorem DriverMove.stepsLeft_lt {hp : HostParams} {t t' : Task} {calls : List PrimCall} (h : DriverMove hp t calls t') :
    t'.stepsLeft hp < t.stepsLeft hp := by
  cases h with
  | badArgument h | refused h | released h =>
    have := h.stepsLeft_le
    simp only [txn_stepsLeft, TxnStage.stepsLeft]
    omega
  | abandon h => exact Nat.lt_succ_of_le h.stepsLeft_le
  | _ => simp only [Task.stepsLeft, Site.stepsAfter, TxnStage.stepsLeft]; omega

/-- Settles O59: each edge of the driver's graph has fewer steps to come at its end than at its start. -/
theorem hostOperationsEnd : Obligations.HostOperationsEnd := by
  unfold Obligations.HostOperationsEnd
  intro s call ok h bytes hidle
  obtain ⟨calls, hmove, -⟩ := driverStep_movesTo call ok h bytes hidle
  exact hmove.stepsLeft_lt

/-! ### The time still to come -/

theorem txn_msLeft (hp : HostParams) (site : Site) (stage : TxnStage) :
    (Task.txn site stage).msLeft hp = site.msAfter hp + stage.msLeft hp.lockTimeoutMs (site.transferMs hp) := rfl

theorem BringupStart.msLeft_le {hp : HostParams} {c : Candidate} {t : Task} (h : BringupStart hp c t) :
    t.msLeft hp ≤ c.msAfter hp + hp.candidateMs := by
  cases h with
  | probe h =>
    simp only [Task.msLeft, Site.msAfter, TxnStage.msLeft, Site.transferMs, HostParams.candidateMs, HostParams.probeMs, h,
      Nat.add_sub_cancel, Nat.mul_add, Nat.add_mul]
    omega
  | noAttempt => exact Nat.zero_le _

theorem CandidateFailure.msLeft_le {hp : HostParams} {c : Candidate} {t : Task} (h : CandidateFailure hp c t) :
    t.msLeft hp ≤ c.msAfter hp := by
  cases h with
  | primary h => simpa [Candidate.msAfter] using h.msLeft_le
  | secondary => exact Nat.zero_le _

/-- What may follow a transaction takes no longer than the bound of its site. -/
theorem GoesOn.msLeft_le {hp : HostParams} {site : Site} {t : Task} (h : GoesOn hp site t) :
    t.msLeft hp ≤ site.msAfter hp := by
  cases h with
  | probeFailed h => have := h.msLeft_le; simp only [Site.msAfter]; omega
  | _ =>
    simp only [Task.msLeft, Site.msAfter, TxnStage.msLeft, Site.transferMs, HostParams.xferMs, Nat.mul_add, Nat.add_mul]
    omega

theorem primCall_ms (hp : HostParams) (handle : Option Handle) (site : Site) :
    (site.op.primCall hp handle).ms = site.transferMs hp := by cases site <;> rfl

/-- What an edge of the graph calls is paid for by the time still to come at its start. -/
theorem DriverMove.msLeft_le {hp : HostParams} {t t' : Task} {calls : List PrimCall} (h : DriverMove hp t calls t') :
    traceMs calls + t'.msLeft hp ≤ t.msLeft hp := by
  cases h with
  | badArgument h | refused h | released h =>
    have := h.msLeft_le
    simp only [txn_msLeft, TxnStage.msLeft, traceMs, List.map, List.sum_cons, List.sum_nil, PrimCall.ms]
    omega
  | abandon h => exact (Nat.zero_add _).trans_le h.msLeft_le
  | transferred => simp only [Task.msLeft, TxnStage.msLeft, traceMs, List.map, List.sum_cons, List.sum_nil, primCall_ms]; omega
  | attach h =>
    simp only [Task.msLeft, Site.msAfter, TxnStage.msLeft, Site.transferMs, traceMs, List.map, List.sum_cons, List.sum_nil,
      PrimCall.ms, HostParams.xferMs, h, Nat.add_sub_cancel, Nat.mul_add, Nat.add_mul]
    omega
  | _ =>
    simp only [Task.msLeft, Site.msAfter, TxnStage.msLeft, Site.transferMs, traceMs, List.map, List.sum_cons, List.sum_nil,
      PrimCall.ms, HostParams.xferMs, HostParams.probeMs]
    omega

theorem traceMs_append (calls trace : List PrimCall) : traceMs (calls ++ trace) = traceMs calls + traceMs trace := by
  simp [traceMs]

theorem startInitialize_msLeft_le (s : State) (bus : Bool) :
    (startInitialize bus s).driver.task.msLeft s.hostPar ≤ s.hostPar.initializeMs := by
  unfold startInitialize HostParams.initializeMs
  split
  · split
    · exact Nat.zero_le _
    · have := (bringup_start s .primary).msLeft_le
      simp only [Candidate.msAfter] at this
      omega
  · exact Nat.zero_le _

theorem startRead_msLeft_le (s : State) (out : Bool) :
    (startRead out s).driver.task.msLeft s.hostPar ≤ s.hostPar.readMs := by
  unfold startRead
  split
  · split
    · simp only [State.transact_driver, Task.msLeft, Site.msAfter, TxnStage.msLeft, Site.transferMs, HostParams.readMs,
        HostParams.xferMs]
      omega
    · exact Nat.zero_le _
  · exact Nat.zero_le _

/-- Settles O60: each edge of the driver's graph pays for its calls, and each operation starts within its bound. -/
theorem latencyBounded : Obligations.LatencyBounded := by
  unfold Obligations.LatencyBounded
  refine ⟨fun s call ok h bytes hidle => ?_, fun s bus _ => startInitialize_msLeft_le s bus,
    fun s out _ => startRead_msLeft_le s out, rfl, rfl⟩
  obtain ⟨calls, hmove, htrace⟩ := driverStep_movesTo call ok h bytes hidle
  have hms := hmove.msLeft_le
  simp only [htrace, traceMs_append]
  omega

end Sys2Proof.Proofs
end

section
/-! PROOF. How the caller's request to initialise starts and how its bring-up ends (46_host_protocol.md R231, R238): it runs on an
unavailable CDP with no command issued before its CALLOAD, and where it comes to no CALLOAD it ends in NOT_FOUND with no handle. -/

open Sys2Proof Sys2Proof.Machine Sys2Proof.Certificates

namespace Sys2Proof.Proofs

/-! ### The start -/

theorem startInitialize_noBus (s : State) : startInitialize false s = s.finish (.err .invalidArgument) := rfl

theorem startInitialize_available {s : State} (ha : s.cdp.status.avail = true) : startInitialize true s = s.finish .ok := by
  simp [startInitialize, ha]

theorem startInitialize_unavailable {s : State} (ha : s.cdp.status.avail = false) :
    startInitialize true s = s.bringup .primary := by
  simp [startInitialize, ha]

theorem bringup_of_attempts {s : State} {c : Candidate} {n : Nat} (h : s.hostPar.probeAttempts = n + 1) :
    s.bringup c = s.transact (.probe c n) := by
  simp [State.bringup, h]

theorem bringup_of_noAttempt {s : State} {c : Candidate} (h : s.hostPar.probeAttempts = 0) : s.bringup c = s.notFound := by
  simp [State.bringup, h]

/-- Settles O51: the four cases of the start, each in the one turn in which the caller asks. -/
theorem initializeStarts : Obligations.InitializeStarts := by
  unfold Obligations.InitializeStarts
  intro s bus rest hq he
  have hidle := hq.1
  rw [step_asked hq he, startCall]
  refine ⟨fun hbus => ?noBus, fun hbus ha => ?available, fun hbus ha n hn => ?probe, fun hbus ha hn => ?noAttempt⟩
  case noBus => rw [hbus, startInitialize_noBus, State.finish, ← hidle]
  case available => rw [hbus, startInitialize_available (by exact ha), State.finish, ← hidle]
  case probe => rw [hbus, startInitialize_unavailable (by exact ha), bringup_of_attempts (by exact hn)]; rfl
  case noAttempt =>
    rw [hbus, startInitialize_unavailable (by exact ha), bringup_of_noAttempt (by exact hn), State.notFound, State.finish,
      State.setHandle, ← hidle]

/-! ### Inside a bring-up -/

/-- The driver came from `s` to `t` without a command, and is either still in a bring-up or has returned NOT_FOUND with no
handle. -/
def StaysOrNotFound (s t : State) : Prop :=
  t.cmd = s.cmd ∧ (t.driver.task.bringingUp = true ∨
    t.driver.task = .idle ∧ t.driver.result = some (.err .notFound) ∧ t.driver.handle = none)

theorem notFound_stays (s : State) : StaysOrNotFound s s.notFound := ⟨rfl, .inr ⟨rfl, rfl, rfl⟩⟩

theorem bringup_stays (s : State) (c : Candidate) : StaysOrNotFound s (s.bringup c) := by
  unfold State.bringup
  split
  · exact notFound_stays s
  · exact ⟨rfl, .inl rfl⟩

theorem nextCandidate_stays (s : State) (c : Candidate) : StaysOrNotFound s (s.nextCandidate c) := by
  cases c with
  | primary => exact bringup_stays s .secondary
  | secondary => exact notFound_stays s

theorem afterProbe_stays (s : State) (c : Candidate) (left : Nat) (r : TxnResult) :
    StaysOrNotFound s (s.afterProbe c left r) := by
  cases r with
  | ok => exact ⟨rfl, .inl rfl⟩
  | err =>
    cases left with
    | zero => exact nextCandidate_stays s c
    | succ n => exact ⟨rfl, .inl rfl⟩

theorem afterChipId_stays (s : State) (c : Candidate) (left : Nat) (r : TxnResult) :
    StaysOrNotFound s (s.afterChipId c left r) := by
  unfold State.afterChipId
  split
  · exact ⟨rfl, .inl rfl⟩
  · cases left <;> exact ⟨rfl, .inl rfl⟩

theorem resume_stays (s : State) (r : TxnResult) {site : Site} (hsite : site.ofBringup = true) :
    StaysOrNotFound s (s.resume r site) := by
  cases site with
  | probe c left => exact afterProbe_stays s c left r
  | chipId c left => exact afterChipId_stays s c left r
  | calA | calB | softReset | ctrlHum | ctrlMeas | config => cases r <;> exact ⟨rfl, .inl rfl⟩
  | status | data | userRead | userWrite => cases hsite

theorem txnStep_stays (ok : Bool) (bytes : List Byte) (s : State) (stage : TxnStage) {site : Site}
    (hsite : site.ofBringup = true) : StaysOrNotFound s (txnStep ok bytes site s stage) := by
  cases stage with
  | acquire =>
    simp only [txnStep]
    split
    · exact resume_stays s _ hsite
    · split
      · exact ⟨rfl, .inl hsite⟩
      · exact resume_stays (s.call _) _ hsite
  | transfer => exact ⟨rfl, .inl hsite⟩
  | release r => exact resume_stays (s.call _) r hsite

theorem attachStep_stays (handle : Handle) (c : Candidate) (s : State) : StaysOrNotFound s (attachStep handle c s) := by
  simp only [attachStep]
  split <;> exact ⟨rfl, .inl rfl⟩

/-- A driver step of a bring-up stays in it, returns NOT_FOUND, or issues CALLOAD (R231 to R234, R238). -/
theorem driverStep_of_bringingUp {s : State} (call : Option Call) (ok : Bool) (handle : Handle) (bytes : List Byte)
    (h : s.driver.task.bringingUp = true) :
    StaysOrNotFound s (driverStep call ok handle bytes s) ∨
      ∃ c, (driverStep call ok handle bytes s).driver.task = .loaded c := by
  unfold driverStep
  cases ht : s.driver.task with
  | txn site stage => rw [ht] at h; exact .inl (txnStep_stays ok bytes s stage h)
  | attach c => exact .inl (attachStep_stays handle c s)
  | abandon c => exact .inl (nextCandidate_stays ((s.call _).setHandle none) c)
  | probeDelay | chipIdDelay | settle => exact .inl ⟨rfl, .inl rfl⟩
  | load c => exact .inr ⟨c, rfl⟩
  | idle | loaded | statusWait | drop | inval | released | measure | collect => rw [ht] at h; cases h

/-! ### Outside a bring-up -/

theorem GoesOn.bringingUp_eq_false {hp : HostParams} {site : Site} {t : Task} (h : GoesOn hp site t)
    (hsite : site.ofBringup = false) : t.bringingUp = false := by
  cases h with
  | ready | converting | statusFailed | dataRead | dataFailed | userRead | userWrite => rfl
  | _ => cases hsite

/-- Only an idle driver enters a bring-up. -/
theorem DriverMove.bringingUp_eq_false {hp : HostParams} {t t' : Task} {calls : List PrimCall} (h : DriverMove hp t calls t')
    (ht : t.bringingUp = false) : t'.bringingUp = false := by
  cases h with
  | badArgument h | refused h | released h => exact h.bringingUp_eq_false ht
  | acquired | transferred => exact ht
  | loaded | statusWait | drop | inval | returned | measure | collect => rfl
  | probeDelay | attach | attachOnly | chipIdDelay | abandon | settle | load => cases ht

theorem startRead_bringingUp (out : Bool) (s : State) : (startRead out s).driver.task.bringingUp = false := by
  unfold startRead
  split
  · split <;> rfl
  · rfl

theorem startRelease_bringingUp (s : State) : (startRelease s).driver.task.bringingUp = false := by
  unfold startRelease
  split <;> rfl

/-- A bring-up is entered on an unavailable CDP only (R231). -/
theorem startInitialize_of_bringingUp {bus : Bool} {s : State} (h : (startInitialize bus s).driver.task.bringingUp = true) :
    s.cdp.status.avail = false ∧ (startInitialize bus s).cmd = s.cmd := by
  cases bus with
  | false => cases h
  | true =>
    cases ha : s.cdp.status.avail with
    | true => rw [startInitialize_available ha] at h; cases h
    | false => rw [startInitialize_unavailable ha]; exact ⟨rfl, (bringup_stays s .primary).1⟩

/-- Nothing else that a caller asks for enters a bring-up. -/
theorem startCall_of_bringingUp {s : State} {c : Call} (hidle : s.driver.task = .idle)
    (h : (startCall s c).driver.task.bringingUp = true) : s.cdp.status.avail = false ∧ (startCall s c).cmd = s.cmd := by
  cases c with
  | init bus => exact startInitialize_of_bringingUp h
  | read out => rw [startCall, startRead_bringingUp] at h; cases h
  | release => rw [startCall, startRelease_bringingUp] at h; cases h
  | readReg r => rw [startCall, (readRegister_idle r s).1] at h; cases h
  | isAvailable | busRead | busWrite => cases h
  | cmd | driveCalA | driveCalB | driveRaw => exact absurd h (by simp [startCall, hidle, Task.bringingUp])

theorem driverStep_bringupUnavailable {s : State} (call : Option Call) (ok : Bool) (handle : Handle) (bytes : List Byte)
    (hs : s.bringupUnavailable) (hcmd : s.cmd = none) : (driverStep call ok handle bytes s).bringupUnavailable := by
  intro hup
  by_cases hidle : s.driver.task = .idle
  · rw [driverStep_idle hidle] at hup ⊢
    cases call with
    | none => exact hs hup
    | some c =>
      obtain ⟨havail, hkept⟩ := startCall_of_bringingUp hidle hup
      exact ⟨(congrArg (·.status.avail) (DriverFrame.startCall s c).cdp).trans havail, hkept.trans hcmd⟩
  cases hbefore : s.driver.task.bringingUp with
  | false =>
    obtain ⟨calls, hmove, -⟩ := driverStep_movesTo call ok handle bytes hidle
    rw [hmove.bringingUp_eq_false hbefore] at hup
    cases hup
  | true =>
    obtain ⟨havail, -⟩ := hs hbefore
    rcases driverStep_of_bringingUp call ok handle bytes hbefore with ⟨hkept, -⟩ | ⟨c, hloaded⟩
    · exact ⟨by rw [(DriverFrame.driverStep call ok handle bytes s).cdp, havail], hkept.trans hcmd⟩
    · rw [hloaded] at hup
      cases hup

/-- Settles O48: a command and a reset do not move the driver, a step inside a bring-up issues nothing but its CALLOAD, and only
an idle driver on an unavailable CDP enters one. -/
theorem stepKeepsBringupUnavailable : Obligations.StepKeepsBringupUnavailable := by
  unfold Obligations.StepKeepsBringupUnavailable
  intro s t hs h
  rcases step_cases h with ⟨op, hop, hx⟩ | ⟨hcmd, -, rfl⟩ | ⟨hcmd, call, ok, handle, bytes, -, rfl⟩
  · intro hup
    rw [exec_frame hx] at hup
    cases hop.symm.trans (hs hup).2
  · exact fun _ => ⟨rfl, by simpa [State.resetCdp] using hcmd⟩
  · exact driverStep_bringupUnavailable call ok handle bytes (by simpa [State.bringupUnavailable] using hs) (by simpa using hcmd)

/-- Settles O56: a bring-up that goes idle has returned NOT_FOUND. -/
theorem failedInitializeIsNotFound : Obligations.FailedInitializeIsNotFound := by
  unfold Obligations.FailedInitializeIsNotFound
  intro s call ok h bytes t hs hup hidle
  obtain ⟨havail, hcmd⟩ := hs hup
  rcases driverStep_of_bringingUp call ok h bytes hup with ⟨htcmd, hstays | ⟨-, hresult, hhandle⟩⟩ | ⟨c, hloaded⟩
  · rw [show (driverStep call ok h bytes s).driver.task = .idle from hidle] at hstays
    cases hstays
  · exact ⟨hresult, hhandle, by rw [(DriverFrame.driverStep call ok h bytes s).cdp, havail], htcmd.trans hcmd⟩
  · cases hloaded.symm.trans hidle

end Sys2Proof.Proofs
end

section
/-! PROOF. Runs of the host driver through whole bus transactions (46_host_protocol.md R235 to R237): `BusRead` and `BusWrite` on
the caller's behalf. -/

open Sys2Proof Sys2Proof.Machine Sys2Proof.Certificates

namespace Sys2Proof.Proofs

/-- The state in which the driver has come to the point `task`, has made the calls `calls`, newest first, and has the turns `rest`
still to come; all else is as in `s`. -/
def advanced (s : State) (task : Task) (calls : List PrimCall) (rest : List Turn) : State :=
  { s with env := rest, driver := { s.driver with task := task }, trace := calls ++ s.trace }

/-- The calls of a transaction whose lock is got, newest first (R235). -/
def lockedCalls (s : State) (site : Site) : List PrimCall :=
  [.release, site.op.primCall s.hostPar s.driver.handle, .tryAcquire s.hostPar.lockTimeoutMs true]

theorem advanced_advanced (s : State) (t t' : Task) (calls calls' : List PrimCall) (rest rest' : List Turn) :
    advanced (advanced s t calls rest) t' calls' rest' = advanced s t' (calls' ++ calls) rest' := by
  simp [advanced]

/-- An operation that began with an idle driver and returns `r`. -/
theorem finish_advanced {s : State} (hidle : s.driver.task = .idle) (t : Task) (calls : List PrimCall) (rest : List Turn)
    (r : HostResult) :
    (advanced s t calls rest).finish r =
      { s with env := rest, driver := { s.driver with result := some r }, trace := calls ++ s.trace } := by
  rw [State.finish, ← hidle]
  rfl

theorem exists_act_of_ne_reset {x : Turn} (h : x ≠ .reset) : ∃ call ok handle bytes, x = .act call ok handle bytes := by
  cases x with
  | reset => exact absurd rfl h
  | act call ok handle bytes => exact ⟨call, ok, handle, bytes, rfl⟩

/-! ### The outcome of a transfer -/

theorem outcome_read (reg : Byte) (n : Nat) (ok : Bool) (bytes : List Byte) :
    (BusOp.read reg n).outcome ok bytes = if ok = true ∧ n ≤ bytes.length then .ok (bytes.take n) else .err .timeout := by
  simp [BusOp.outcome]

theorem outcome_write (reg v : Byte) (ok : Bool) (bytes : List Byte) :
    (BusOp.write reg v).outcome ok bytes = if ok = true then .ok [] else .err .timeout := by
  simp [BusOp.outcome]

/-! ### A transaction that the caller asks for -/

section
variable {s : State} {c : Call} {site : Site} {result : TxnResult → HostResult} {rest : List Turn}

/-- A transaction that the caller asked for, with a bad argument: no call is made (R236, R237). -/
theorem run_userTxn_badArgument {x : Turn} (hq : Quiet s) (hstart : ∀ u, startCall u c = u.transact site)
    (hend : ∀ u r, State.resume u r site = u.finish (result r)) (hb : site.op.badArgument s.driver.handle = true)
    (he : s.env = asked c :: x :: rest) (hx : x ≠ .reset) :
    core.run 2 s = .next { s with
      env := rest, driver := { s.driver with result := some (result (.err .invalidArgument)) } } := by
  obtain ⟨call, ok, handle, bytes, rfl⟩ := exists_act_of_ne_reset hx
  rw [run_next (step_asked hq he), hstart, run_txn_badArgument (by exact hq.2) rfl (by exact hb) rfl, hend]
  exact congrArg _ (finish_advanced hq.1 _ [] rest _)

/-- A transaction that the caller asked for, whose lock is not got (R236, R237). -/
theorem run_userTxn_refused (hq : Quiet s) (hstart : ∀ u, startCall u c = u.transact site)
    (hend : ∀ u r, State.resume u r site = u.finish (result r)) (hb : site.op.badArgument s.driver.handle = false)
    (he : s.env = asked c :: denied :: rest) :
    core.run 2 s = .next { s with
      env := rest, driver := { s.driver with result := some (result (.err .timeout)) }
      trace := .tryAcquire s.hostPar.lockTimeoutMs false :: s.trace } := by
  rw [run_next (step_asked hq he), hstart, run_txn_refused (by exact hq.2) rfl (by exact hb) rfl, hend]
  exact congrArg _ (finish_advanced hq.1 _ [.tryAcquire s.hostPar.lockTimeoutMs false] rest _)

/-- A transaction that the caller asked for, whose lock is got (R235 to R237). -/
theorem run_userTxn {handle : Handle} {ok : Bool} {bytes : List Byte} {x : Turn} (hq : Quiet s)
    (hstart : ∀ u, startCall u c = u.transact site) (hend : ∀ u r, State.resume u r site = u.finish (result r))
    (hb : site.op.badArgument s.driver.handle = false)
    (he : s.env = asked c :: granted handle [] :: .act none ok handle bytes :: x :: rest) (hx : x ≠ .reset) :
    core.run 4 s = .next { s with
      env := rest, driver := { s.driver with result := some (result (site.op.outcome ok bytes)) }
      trace := lockedCalls s site ++ s.trace } := by
  obtain ⟨call, ok', handle', bytes', rfl⟩ := exists_act_of_ne_reset hx
  rw [run_next (step_asked hq he), hstart, run_txn (by exact hq.2) rfl (by exact hb) rfl, hend]
  exact congrArg _ (finish_advanced hq.1 _ (lockedCalls s site) rest _)

end

/-- What `BusRead` returns for what its transaction gave (R236). -/
def readResult : TxnResult → HostResult
  | .ok bytes => .bytes bytes
  | .err e => .err e

/-- What `BusWrite` returns for what its transaction gave (R237). -/
def writeResult : TxnResult → HostResult
  | .ok _ => .ok
  | .err e => .err e

theorem resume_userRead (reg : Byte) (n : Nat) (s : State) (r : TxnResult) :
    s.resume r (.userRead reg n) = s.finish (readResult r) := by cases r <;> rfl

theorem resume_userWrite (reg v : Byte) (s : State) (r : TxnResult) :
    s.resume r (.userWrite reg v) = s.finish (writeResult r) := by cases r <;> rfl

theorem badArgument_read {reg : Byte} {n : Nat} {handle : Option Handle} :
    (BusOp.read reg n).badArgument handle = true ↔ handle = none ∨ n = 0 := by
  simp [BusOp.badArgument]

theorem badArgument_read_eq_false {reg : Byte} {n : Nat} {handle : Option Handle} (hh : handle.isSome) (hn : n ≠ 0) :
    (BusOp.read reg n).badArgument handle = false := by
  cases handle with
  | none => cases hh
  | some _ => simpa [BusOp.badArgument] using hn

theorem badArgument_write_eq_false {reg v : Byte} {handle : Option Handle} (hh : handle.isSome) :
    (BusOp.write reg v).badArgument handle = false := by
  cases handle with
  | none => cases hh
  | some _ => rfl

/-- Settles O53: the three ways of a transaction, for a read. -/
theorem busReadFollowsTheLock : Obligations.BusReadFollowsTheLock := by
  unfold Obligations.BusReadFollowsTheLock
  intro s reg n h bytes rest hq
  refine ⟨fun x hbad he hx => ?_, fun hh hn he => ?_, fun hh hn ok x he hx => ?_⟩
  · exact run_userTxn_badArgument hq (fun _ => rfl) (resume_userRead reg n) (badArgument_read.mpr hbad) he hx
  · exact run_userTxn_refused hq (fun _ => rfl) (resume_userRead reg n) (badArgument_read_eq_false hh hn) he
  · rw [run_userTxn hq (fun _ => rfl) (resume_userRead reg n) (badArgument_read_eq_false hh hn) he hx, Site.op, outcome_read,
      apply_ite readResult]
    rfl

/-- Settles O54: the three ways of a transaction, for a write. -/
theorem busWriteFollowsTheLock : Obligations.BusWriteFollowsTheLock := by
  unfold Obligations.BusWriteFollowsTheLock
  intro s reg v h rest hq
  refine ⟨fun x hnone he hx => ?_, fun hh he => ?_, fun hh ok x he hx => ?_⟩
  · exact run_userTxn_badArgument hq (fun _ => rfl) (resume_userWrite reg v) (by rw [hnone]; rfl) he hx
  · exact run_userTxn_refused hq (fun _ => rfl) (resume_userWrite reg v) (badArgument_write_eq_false hh) he
  · rw [run_userTxn hq (fun _ => rfl) (resume_userWrite reg v) (badArgument_write_eq_false hh) he hx, Site.op, outcome_write,
      apply_ite writeResult]
    rfl

end Sys2Proof.Proofs
end

section
/-! PROOF. Failed tries of a bring-up (46_host_protocol.md R231 to R234, R238, 92_eei_decisions.md D32): each is followed by its
delay and the next try, or the candidate is given up with its handle released. -/

open Sys2Proof Sys2Proof.Machine Sys2Proof.Certificates

namespace Sys2Proof.Proofs

/-- What a failed try of a transaction gave: the lock was not got, or the draw of the transfer was bad. -/
def FailedResult (op : BusOp) (bad : Bool → List Byte → Prop) (r : TxnResult) : Prop :=
  r = .err .timeout ∨ ∃ ok bytes, bad ok bytes ∧ r = op.outcome ok bytes

section
variable {s : State} {site : Site} {call : PrimCall} {bad : Bool → List Byte → Prop} {turns rest : List Turn}
  {calls : List PrimCall}

/-- A failed try of a transaction: the driver makes the calls of the try and resumes with what it gave (R235 to R237). -/
theorem run_failedTry (hc : s.cmd = none) (ht : s.driver.task = .txn site .acquire)
    (hb : site.op.badArgument s.driver.handle = false) (hcall : site.op.primCall s.hostPar s.driver.handle = call)
    (htry : FailedTry s call bad turns calls) (he : s.env = turns ++ rest) :
    ∃ task r, FailedResult site.op bad r ∧
      ∀ n, core.run (turns.length + n) s = core.run n ((advanced s task calls rest).resume r site) := by
  subst hcall
  rcases htry with ⟨rfl, rfl⟩ | ⟨ok, bytes, hbad, rfl, rfl⟩
  · refine ⟨s.driver.task, _, .inl rfl, fun n => ?_⟩
    rw [Nat.add_comm]
    exact run_txn_refused hc ht hb he
  · refine ⟨.txn site (.release (site.op.outcome ok bytes)), _, .inr ⟨ok, bytes, hbad, rfl⟩, fun n => ?_⟩
    rw [Nat.add_comm]
    exact run_txn hc ht hb he

/-- A failed try after which the driver goes to `next` whatever the failure was, and the step from there. -/
theorem run_failedTry_step {next : Task} {t : State} (hc : s.cmd = none) (ht : s.driver.task = .txn site .acquire)
    (hb : site.op.badArgument s.driver.handle = false) (hcall : site.op.primCall s.hostPar s.driver.handle = call)
    (htry : FailedTry s call bad turns calls) (he : s.env = turns ++ [granted 0 []] ++ rest)
    (hnext : ∀ u r, FailedResult site.op bad r → State.resume u r site = u.goto next)
    (hstep : driverStep none true 0 [] (advanced s next calls rest) = t) :
    core.run (turns.length + 1) s = .next t := by
  rw [List.append_assoc] at he
  obtain ⟨task, r, hr, hrun⟩ := run_failedTry hc ht hb hcall htry he
  rw [hrun, hnext _ r hr, run_next (step_turn (by exact hc) rfl), ← hstep]
  rfl

end

/-! ### What counts as a failure at each site -/

/-- A read of `n` bytes that is refused or too short is a TIMEOUT (R236). -/
theorem eq_timeout_of_short {reg : Byte} {n : Nat} {r : TxnResult}
    (h : FailedResult (.read reg n) (fun ok bytes => ok = false ∨ bytes.length < n) r) : r = .err .timeout := by
  rcases h with h | ⟨ok, bytes, hbad, rfl⟩
  · exact h
  · rw [outcome_read, if_neg]
    rintro ⟨hok, hlen⟩
    rcases hbad with hbad | hbad
    · cases hok.symm.trans hbad
    · omega

/-- A refused transfer is a TIMEOUT, of whatever kind it is (R232, R236, R237). -/
theorem eq_timeout_of_refused {op : BusOp} {r : TxnResult} (h : FailedResult op (fun ok _ => ok = false) r) :
    r = .err .timeout := by
  rcases h with h | ⟨ok, bytes, rfl, rfl⟩
  · exact h
  · cases op <;> rfl

/-- A refused identity read, an empty one and one of a wrong byte do not identify the chip (R232, D32). -/
theorem not_identified {r : TxnResult}
    (h : FailedResult (.read Config.chipIdReg 1) (fun ok bytes => ok = false ∨ bytes.head? ≠ some Config.chipIdValue) r) :
    r ≠ .ok [Config.chipIdValue] := by
  rcases h with rfl | ⟨ok, bytes, hbad, rfl⟩
  · exact nofun
  · rw [outcome_read]
    split
    · rename_i hgot
      rcases hbad with hbad | hbad
      · cases hgot.1.symm.trans hbad
      · intro heq
        cases bytes with
        | nil => cases heq
        | cons b bs => exact hbad (by simpa using heq)
    · exact nofun

/-! ### Giving a candidate up -/

/-- The next candidate, from wherever the driver is when the one of `s` fails (R231, R238). -/
theorem nextCandidate_advanced {s : State} {k : Nat} (hk : s.hostPar.probeAttempts = k + 1) (task : Task)
    (handle : Option Handle) (calls : List PrimCall) (rest : List Turn) (c : Candidate) :
    State.nextCandidate ((advanced s task calls rest).setHandle handle) c = candidateFailed s k handle calls rest c := by
  cases c with
  | primary => rw [State.nextCandidate, bringup_of_attempts (by exact hk)]; rfl
  | secondary => rfl

/-- The step that gives up a candidate: `Detach`, and the next candidate (R232 to R234). -/
theorem driverStep_abandon {s : State} {k : Nat} {handle : Option Handle} (hk : s.hostPar.probeAttempts = k + 1)
    (hh : s.driver.handle = handle) (calls : List PrimCall) (rest : List Turn) (c : Candidate) :
    driverStep none true 0 [] (advanced s (.abandon c) calls rest) =
      candidateFailed s k none (.detach handle :: calls) rest c := by
  subst hh
  exact nextCandidate_advanced hk _ none (.detach s.driver.handle :: calls) rest c

/-- An identity read that does not identify the chip is retried while attempts remain (R232, D32). -/
theorem resume_chipId_retry {s : State} {r : TxnResult} (h : r ≠ .ok [Config.chipIdValue]) (c : Candidate) (n : Nat) :
    s.resume r (.chipId c (n + 1)) = s.goto (.chipIdDelay c n) := if_neg h

/-- The last identity read that does not identify the chip gives the candidate up (R232). -/
theorem resume_chipId_last {s : State} {r : TxnResult} (h : r ≠ .ok [Config.chipIdValue]) (c : Candidate) :
    s.resume r (.chipId c 0) = s.goto (.abandon c) := if_neg h

/-- Settles O52: at each site, what a failed try gives, where the driver then goes, and the step from there. -/
theorem failedAttemptsAreRetriedThenGivenUp : Obligations.FailedAttemptsAreRetriedThenGivenUp := by
  unfold Obligations.FailedAttemptsAreRetriedThenGivenUp
  intro s c n k h turns calls rest hc hk read write retried refused wrongId short delay
  refine ⟨fun htry => ⟨fun ht he => ?probeRetry, fun ht he => ?probeLast⟩, fun hh => ⟨fun htry he => ⟨fun ht => ?idRetry,
    fun ht => ?idLast⟩, fun a b site call bad hcase htry he ht => ?giveUp⟩⟩
  case probeRetry =>
    exact run_failedTry_step hc ht rfl rfl htry he (fun u r hr => by rw [eq_timeout_of_refused hr]; rfl) rfl
  case probeLast =>
    obtain ⟨task, r, hr, hrun⟩ := run_failedTry hc ht rfl rfl htry he
    rw [← Nat.add_zero turns.length, hrun, eq_timeout_of_refused hr]
    exact congrArg _ (nextCandidate_advanced hk task s.driver.handle calls rest c)
  case idRetry =>
    exact run_failedTry_step hc ht (by rw [hh]; rfl) (by rw [hh]; rfl) htry he
      (fun u r hr => resume_chipId_retry (not_identified hr) c n) rfl
  case idLast =>
    exact run_failedTry_step hc ht (by rw [hh]; rfl) (by rw [hh]; rfl) htry he
      (fun u r hr => resume_chipId_last (not_identified hr) c) (driverStep_abandon hk hh calls rest c)
  case giveUp =>
    have habandon : site.op.badArgument (some h) = false ∧ site.op.primCall s.hostPar (some h) = call ∧
        (∀ r, FailedResult site.op bad r → r = .err .timeout) ∧
        ∀ u, State.resume u (.err .timeout) site = u.goto (.abandon c) := by
      rcases hcase with hcase | hcase | hcase | hcase | hcase | hcase <;> cases hcase
      · exact ⟨rfl, rfl, fun _ => eq_timeout_of_short, fun _ => rfl⟩
      · exact ⟨rfl, rfl, fun _ => eq_timeout_of_short, fun _ => rfl⟩
      · exact ⟨rfl, rfl, fun _ => eq_timeout_of_refused, fun _ => rfl⟩
      · exact ⟨rfl, rfl, fun _ => eq_timeout_of_refused, fun _ => rfl⟩
      · exact ⟨rfl, rfl, fun _ => eq_timeout_of_refused, fun _ => rfl⟩
      · exact ⟨rfl, rfl, fun _ => eq_timeout_of_refused, fun _ => rfl⟩
    obtain ⟨hb, hcall, htimeout, hresume⟩ := habandon
    exact run_failedTry_step hc ht (by rw [hh, hb]) (by rw [hh, hcall]) htry he
      (fun u r hr => by rw [htimeout r hr, hresume]) (driverStep_abandon hk hh calls rest c)

end Sys2Proof.Proofs
end

section
/-! PROOF. A bring-up in which every call succeeds (46_host_protocol.md R232 to R234): transactions that succeed, the
configuration of the sensor with the CALLOAD that follows it, and the identification before it. -/

open Sys2Proof Sys2Proof.Machine Sys2Proof.Certificates

namespace Sys2Proof.Proofs

/-- A transaction whose transfer succeeds, after which the driver goes to `next` (R235 to R237). -/
theorem run_txn_goto {k : Nat} {s : State} {site : Site} {next : Task} {handle : Handle} {bytes : List Byte}
    {rest : List Turn} (hc : s.cmd = none) (ht : s.driver.task = .txn site .acquire)
    (hb : site.op.badArgument s.driver.handle = false)
    (he : s.env = granted handle [] :: granted handle bytes :: granted handle [] :: rest)
    (hnext : ∀ u, State.resume u (site.op.outcome true bytes) site = u.goto next) :
    core.run (k + 3) s = core.run k (advanced s next (lockedCalls s site) rest) := by
  rw [run_txn hc ht hb he, hnext]
  rfl

/-- A step outside a transaction in which the primitive called succeeds, from the point `task` to the point `next`. -/
theorem run_granted {k : Nat} {s : State} {task : Task} (next : Task) (calls : List PrimCall) {handle : Handle}
    {rest : List Turn} (hc : s.cmd = none) (ht : s.driver.task = task) (he : s.env = granted handle [] :: rest)
    (hstep : driverStep none true handle [] (advanced s task [] rest) = advanced s next calls rest) :
    core.run (k + 1) s = core.run k (advanced s next calls rest) := by
  subst ht
  rw [run_next (step_turn hc he), ← hstep]
  rfl

/-! ### The bytes of a read -/

theorem imageOf_toList {n : Nat} (im : Image n) : imageOf n im.toList = im := by
  ext i hi
  simp [imageOf]

/-- A read of `n` bytes that succeeds returns the `n` bytes drawn (R236). -/
theorem outcome_read_image (reg : Byte) {n : Nat} (im : Image n) : (BusOp.read reg n).outcome true im.toList = .ok im.toList := by
  simp [outcome_read]

/-! ### The configuration and the CALLOAD -/

/-- The calls from the soft-reset write to the CALLOAD, newest first (R233, R234). -/
def configureCalls (s : State) (c : Candidate) (a : Image 26) (b : Image 7) : List PrimCall :=
  .cmd 0x01 :: lockedCalls s (.config c a b) ++ lockedCalls s (.ctrlMeas c a b) ++ lockedCalls s (.ctrlHum c a b) ++
    .sleep s.hostPar.resetSettleMs :: lockedCalls s (.softReset c a b)

/-- The state after a bring-up that has loaded the images `a` and `b`: the calibration is decoded from them, the CDP is available,
and the driver has returned OK at the address of `c` (R231, R233). -/
def broughtUp (s : State) (c : Candidate) (a : Image 26) (b : Image 7) (calls : List PrimCall) (rest : List Turn) : State :=
  { s with
    cdp := s.cdp.loadCal (decodeCal a b), calA := some a, calB := some b, env := rest, draws := s.draws + 2
    driver := { s.driver with addr := some c.addr, task := .idle, result := some .ok }, trace := calls ++ s.trace }

theorem lockedCalls_advanced (s : State) (t : Task) (calls : List PrimCall) (rest : List Turn) (site : Site) :
    lockedCalls (advanced s t calls rest) site = lockedCalls s site := rfl

theorem setHandle_advanced (s : State) (t : Task) (calls : List PrimCall) (rest : List Turn) (h : Option Handle) :
    (advanced s t calls rest).setHandle h = advanced (s.setHandle h) t calls rest := rfl

theorem setHandle_self {s : State} {h : Option Handle} (hh : s.driver.handle = h) : s.setHandle h = s := by
  subst hh
  rfl

theorem configureCalls_advanced (s : State) (t : Task) (calls : List PrimCall) (rest : List Turn) (c : Candidate)
    (a : Image 26) (b : Image 7) : configureCalls (advanced s t calls rest) c a b = configureCalls s c a b := rfl

theorem broughtUp_advanced (s : State) (t : Task) (c : Candidate) (a : Image 26) (b : Image 7) (calls calls' : List PrimCall)
    (rest rest' : List Turn) :
    broughtUp (advanced s t calls rest) c a b calls' rest' = broughtUp s c a b (calls' ++ calls) rest' := by
  simp [broughtUp, advanced]

/-- The CDP executes the CALLOAD of a bring-up on the images that the host has just driven (R56, R58, R100). -/
theorem run_calload {k : Nat} {s : State} (hc : s.cmd = some 0x01) (ha : s.cdp.status.avail = false) :
    core.run (k + 1) s =
      core.run k { s with
        cmd := none, cdp := s.cdp.loadCal (decodeCal s.seenCalA s.seenCalB), draws := s.draws + 2 } := by
  refine run_next ?_
  rw [step_of_cmd hc]
  exact execCalload_unavailable (s := { s with cmd := none }) ha

/-- The last three steps of a bring-up: the images are presented with CALLOAD, the CDP executes it, the driver returns OK (R231,
R233). -/
theorem run_load {s : State} {c : Candidate} {a : Image 26} {b : Image 7} {h : Handle} {rest : List Turn} (hc : s.cmd = none)
    (ha : s.cdp.status.avail = false) (ht : s.driver.task = .load c a b)
    (he : s.env = granted h [] :: granted h [] :: rest) :
    core.run 3 s = .next (broughtUp s c a b [.cmd 0x01] rest) := by
  have hissue : step s = .next ((((({ s with env := granted h [] :: rest } : State).driveCalA a).driveCalB b).issue 0x01).goto
      (.loaded c)) := by
    rw [step_turn hc he]
    simp [driverStep, ht]
  rw [run_next hissue, run_calload rfl (by exact ha), run_next (step_turn rfl rfl), broughtUp, ← hc]
  rfl

/-- From the soft-reset write to the return of OK: four writes, the settle delay, and the load (R233, R234). -/
theorem run_configure {s : State} {c : Candidate} {a : Image 26} {b : Image 7} {h : Handle} {rest : List Turn}
    (hc : s.cmd = none) (ha : s.cdp.status.avail = false) (hh : s.driver.handle = some h)
    (ht : s.driver.task = .txn (.softReset c a b) .acquire) (he : s.env = List.replicate 15 (granted h []) ++ rest) :
    core.run 16 s = .next (broughtUp s c a b (configureCalls s c a b) rest) := by
  have hb : s.driver.handle.isNone = false := by rw [hh]; rfl
  rw [run_txn_goto (next := .settle c a b) hc ht hb he fun _ => rfl,
    run_granted (.txn (.ctrlHum c a b) .acquire) [.sleep s.hostPar.resetSettleMs] (by exact hc) rfl rfl rfl,
    run_txn_goto (next := .txn (.ctrlMeas c a b) .acquire) (by exact hc) rfl (by exact hb) rfl fun _ => rfl,
    run_txn_goto (next := .txn (.config c a b) .acquire) (by exact hc) rfl (by exact hb) rfl fun _ => rfl,
    run_txn_goto (next := .load c a b) (by exact hc) rfl (by exact hb) rfl fun _ => rfl,
    run_load (rest := rest) (by exact hc) (by exact ha) rfl rfl]
  simp only [broughtUp_advanced, lockedCalls_advanced, configureCalls, List.append_assoc, List.cons_append, List.nil_append]

/-! ### The identification and the calibration reads -/

/-- The calls from the lock of a probe to the calibration reads, newest first; `held` is the state with the handle that `Attach`
returned (R232, R233). -/
def identifyCalls (s held : State) (c : Candidate) (n k : Nat) (a : Image 26) : List PrimCall :=
  lockedCalls held (.calB c a) ++ lockedCalls held (.calA c) ++ lockedCalls held (.chipId c k) ++
    .attach c.addr Config.busSpeed Config.attachParams :: lockedCalls s (.probe c n)

/-- `Attach`, and the start of the first identity read (R232). -/
theorem run_attach {j k : Nat} {s : State} {c : Candidate} {h : Handle} {rest : List Turn} (hc : s.cmd = none)
    (ht : s.driver.task = .attach c) (hk : s.hostPar.chipIdAttempts = k + 1) (he : s.env = granted h [] :: rest) :
    core.run (j + 1) s =
      core.run j (advanced (s.setHandle (some h)) (.txn (.chipId c k) .acquire)
        [.attach c.addr Config.busSpeed Config.attachParams] rest) := by
  refine run_next ?_
  rw [step_turn hc he]
  simp [driverStep, ht, attachStep, hk, advanced, State.call, State.setHandle, State.transact, State.goto]

theorem resume_chipId_identified (u : State) (c : Candidate) (k : Nat) :
    u.resume ((Site.chipId c k).op.outcome true [Config.chipIdValue]) (.chipId c k) = u.goto (.txn (.calA c) .acquire) :=
  if_pos rfl

theorem resume_calA_image (u : State) (c : Candidate) (a : Image 26) :
    u.resume ((Site.calA c).op.outcome true a.toList) (.calA c) = u.goto (.txn (.calB c a) .acquire) := by
  rw [Site.op, outcome_read_image, State.resume, State.orAbandon, imageOf_toList]

theorem resume_calB_image (u : State) (c : Candidate) (a : Image 26) (b : Image 7) :
    u.resume ((Site.calB c a).op.outcome true b.toList) (.calB c a) = u.goto (.txn (.softReset c a b) .acquire) := by
  rw [Site.op, outcome_read_image, State.resume, State.orAbandon, imageOf_toList]

/-- From the lock of a probe to the soft-reset write: probe, attach, identify, and read the two calibration blocks (R232, R233). -/
theorem run_identify {j n k : Nat} {s : State} {c : Candidate} {a : Image 26} {b : Image 7} {h : Handle} {rest : List Turn}
    (hc : s.cmd = none) (ht : s.driver.task = .txn (.probe c n) .acquire) (hk : s.hostPar.chipIdAttempts = k + 1)
    (he : s.env = [granted h [], granted h [], granted h [], granted h [], granted h [], granted h [Config.chipIdValue],
      granted h [], granted h [], granted h a.toList, granted h [], granted h [], granted h b.toList, granted h []] ++ rest) :
    core.run (j + 13) s =
      core.run j (advanced (s.setHandle (some h)) (.txn (.softReset c a b) .acquire)
        (identifyCalls s (s.setHandle (some h)) c n k a) rest) := by
  rw [run_txn_goto (next := .attach c) hc ht rfl he fun _ => rfl, run_attach (by exact hc) rfl (by exact hk) rfl,
    run_txn_goto (by exact hc) rfl rfl rfl fun u => resume_chipId_identified u c k,
    run_txn_goto (by exact hc) rfl rfl rfl fun u => resume_calA_image u c a,
    run_txn_goto (by exact hc) rfl rfl rfl fun u => resume_calB_image u c a b]
  simp only [setHandle_advanced, advanced_advanced, lockedCalls_advanced, identifyCalls, List.append_assoc, List.singleton_append]
  rfl

/-- Settles O55: the identification, if the bring-up is before it, and the configuration with its CALLOAD. -/
theorem bringupConfiguresThenLoads : Obligations.BringupConfiguresThenLoads := by
  unfold Obligations.BringupConfiguresThenLoads
  intro s c a b h rest hc ha lock write read configured identified done
  refine ⟨fun n k ht hk he => ?_, fun ht hh he => ?_⟩
  · rw [run_identify hc ht hk he]
    rw [run_configure (by exact hc) (by exact ha) rfl rfl rfl, broughtUp_advanced, configureCalls_advanced]
    rfl
  · rw [run_configure hc ha hh ht he]
    conv_lhs => rw [← setHandle_self hh]
    rfl

end Sys2Proof.Proofs
end

section
/-! PROOF. The read cycle (46_host_protocol.md R240 to R243): the status read with its wait, the data read, MEASURE on the eight
bytes read, and the return by `STATUS.ERR`; and the operations that return at once. -/

open Sys2Proof Sys2Proof.Machine Sys2Proof.Certificates

namespace Sys2Proof.Proofs

/-! ### The status read -/

theorem startRead_available {s : State} (ha : s.cdp.status.avail = true) : startRead true s = s.transact .status := by
  simp [startRead, ha]

theorem startRead_unavailable {s : State} (ha : s.cdp.status.avail = false) : startRead true s = s.finish (.err .invalidState) := by
  simp [startRead, ha]

theorem resume_status_ready {sb : Byte} (h : sb &&& Config.statusBusyMask = 0) (u : State) :
    u.resume (Site.status.op.outcome true [sb]) .status = u.goto (.txn .data .acquire) := if_pos h

theorem resume_status_converting {sb : Byte} (h : sb &&& Config.statusBusyMask ≠ 0) (u : State) :
    u.resume (Site.status.op.outcome true [sb]) .status = u.goto .statusWait := if_neg h

/-- The calls of a read up to its data read, newest first: the status read, and the wait where a conversion is in progress
(R240). -/
def statusCalls (s : State) (busy : Bool) : List PrimCall :=
  (if busy then [.sleep s.hostPar.statusWaitMs] else []) ++ lockedCalls s .status

/-- From the caller's request to the data read (R240). -/
theorem run_status {j : Nat} {s : State} {h : Handle} {sb : Byte} {busy : Bool} {rest : List Turn} (hq : Quiet s)
    (hh : s.driver.handle = some h) (ha : s.cdp.status.avail = true)
    (hbusy : busy = decide (sb &&& Config.statusBusyMask ≠ 0))
    (he : s.env = [asked (.read true), granted h [], granted h [sb], granted h []] ++
      (if busy then [granted h []] else []) ++ rest) :
    core.run (j + if busy then 5 else 4) s =
      core.run j (advanced s (.txn .data .acquire) (statusCalls s busy) rest) := by
  have hc := hq.2
  have hb : Site.status.op.badArgument s.driver.handle = false := by rw [hh]; rfl
  cases busy with
  | false =>
    have hready : sb &&& Config.statusBusyMask = 0 := by simpa using hbusy
    rw [if_neg Bool.false_ne_true, run_next (step_asked hq he), startCall, startRead_available (by exact ha),
      run_txn_goto (by exact hc) rfl (by exact hb) rfl (resume_status_ready hready)]
    rfl
  | true =>
    have hconverting : sb &&& Config.statusBusyMask ≠ 0 := by simpa using hbusy
    rw [if_pos rfl, run_next (step_asked hq he), startCall, startRead_available (by exact ha),
      run_txn_goto (by exact hc) rfl (by exact hb) rfl (resume_status_converting hconverting),
      run_granted (.txn .data .acquire) [.sleep s.hostPar.statusWaitMs] (by exact hc) rfl rfl rfl]
    rfl

/-! ### MEASURE -/

theorem resume_data_image (u : State) (r : Image 8) :
    u.resume (Site.data.op.outcome true r.toList) .data = u.goto (.measure r) := by
  rw [Site.op, outcome_read_image, State.resume, imageOf_toList]

/-- A MEASURE that leaves NONE while available has published its results (R121 to R124). -/
theorem results_of_err_none {s t : State} (ha : s.cdp.status.avail = true) (h : execMeasure s = .next t)
    (herr : t.cdp.status.err = errNone) :
    ∃ c f hp p, t.cdp.tempC = some c ∧ t.cdp.tempF = some f ∧ t.cdp.humPct = some hp ∧ t.cdp.pressHpa = some p := by
  rcases execMeasure_cases h with ⟨hna, -⟩ | ⟨-, -, rfl⟩ | ⟨-, -, k, res, -, -, rfl⟩ | ⟨-, -, -, rfl⟩
  · cases ha.symm.trans hna
  · exact absurd herr (by simp [Cdp.failMeasure, errNone, errInvalidResponse])
  · exact ⟨_, _, _, _, rfl, rfl, rfl, rfl⟩
  · exact absurd herr (by simp [Cdp.failMeasure, errNone, errInvalidState])

/-- The state in which the driver returns by `STATUS.ERR`: MEASURE on the registers of `s` gave `t`, and the read had made the calls
`calls` before its data read (R242). -/
def measuredRead (s t : State) (calls : List PrimCall) (rest : List Turn) : State :=
  { t with
    driver := { s.driver with task := .collect }, env := rest
    trace := .cmd 0x02 :: lockedCalls s .data ++ calls ++ s.trace }

/-- The CDP executes a MEASURE that waits on `CMD` (R58). -/
theorem run_measure {k : Nat} {s t : State} (hc : s.cmd = some 0x02) (hx : exec .measure { s with cmd := none } = .next t) :
    core.run (k + 1) s = core.run k t := run_next ((step_of_cmd hc).trans hx)

/-- From the data read to the return: the eight bytes are presented with MEASURE, which the CDP executes (R241, R242). -/
theorem run_data {s t : State} {h : Handle} {r : Image 8} {rest : List Turn} (calls : List PrimCall) (hc : s.cmd = none)
    (hh : s.driver.handle = some h) (hx : exec .measure { s with rawIn := some r } = .next t) :
    core.run 6 (advanced s (.txn .data .acquire) calls
      ([granted h [], granted h r.toList, granted h [], granted h [], granted h []] ++ rest)) =
        .next (collect (measuredRead s t calls rest)) := by
  have hb : Site.data.op.badArgument s.driver.handle = false := by rw [hh]; rfl
  have hx' : exec .measure { s with cmd := none, rawIn := some r } = .next t := by rw [← hc]; exact hx
  have htc : t.cmd = none := by rw [exec_frame hx']
  rw [run_txn_goto (by exact hc) rfl (by exact hb) rfl fun u => resume_data_image u r, run_next (step_turn (by exact hc) rfl),
    run_measure (t := measuredRead s t calls (granted h [] :: rest)) rfl (by exact exec_other_driver _ _ _ hx'),
    run_next (step_turn (by exact htc) rfl)]
  rfl

/-! ### The return -/

/-- The return by `STATUS.ERR` keeps the registers, the ports, the turns, the handle and the calls, and ends the operation. -/
theorem collect_keeps (u : State) :
    (collect u).cdp = u.cdp ∧ (collect u).rawIn = u.rawIn ∧ (collect u).env = u.env ∧ (collect u).driver.task = .idle ∧
      (collect u).driver.handle = u.driver.handle ∧ (collect u).trace = u.trace := by
  rcases collect_cases u with ⟨r, h⟩ | ⟨r, -, h⟩ <;> rw [h] <;> exact ⟨rfl, rfl, rfl, rfl, rfl, rfl⟩

theorem collect_invalidResponse {u : State} (h : u.cdp.status.err = errInvalidResponse) :
    collect u = u.finish (.err .invalidResponse) := by
  rw [collect, h]
  rfl

theorem collect_measurement {u : State} {c f h p : FloatVal} (herr : u.cdp.status.err = errNone)
    (hc : u.cdp.tempC = some c) (hf : u.cdp.tempF = some f) (hh : u.cdp.humPct = some h) (hp : u.cdp.pressHpa = some p) :
    collect u = u.finish (.measurement c f h p) := by
  simp [collect, herr, returnMeasurement, hc, hf, hh, hp]

/-- Settles O57: the status read, the data read with MEASURE, the return; and the operations that return at once. -/
theorem readCycleReturns : Obligations.ReadCycleReturns := by
  unfold Obligations.ReadCycleReturns
  refine ⟨?read, fun s rest hq => ?atOnce⟩
  case read =>
    intro s t h sb r rest hq hh ha busy he hx
    have hbusy : busy = decide (sb &&& Config.statusBusyMask ≠ 0) := rfl
    clear_value busy
    have hsteps : (if busy then 11 else 10) = 6 + if busy then 5 else 4 := by cases busy <;> rfl
    rw [List.append_assoc] at he
    rw [hsteps, run_status hq hh ha hbusy he, run_data (statusCalls s busy) hq.2 hh hx]
    obtain ⟨hcdp, hraw, henv, htask, hhandle, htrace⟩ := collect_keeps (measuredRead s t (statusCalls s busy) rest)
    refine ⟨_, rfl, hcdp, ?_, henv, htask, hhandle.trans hh, ?_, fun herr => ?_, fun herr => ?_⟩
    · rw [hraw]
      exact congrArg State.rawIn (exec_frame hx)
    · rw [htrace]
      simp [measuredRead, statusCalls, lockedCalls, Site.op, BusOp.primCall, hh]
    · rw [collect_invalidResponse (by exact herr)]
      rfl
    · obtain ⟨c, f, hp, p, hc, hf, hhp, hpp⟩ := results_of_err_none (by exact ha) hx herr
      refine ⟨c, f, hp, p, hc, hf, hhp, hpp, ?_⟩
      rw [collect_measurement (by exact herr) (by exact hc) (by exact hf) (by exact hhp) (by exact hpp)]
      rfl
  case atOnce =>
    have hidle := hq.1
    refine ⟨fun ha he => ?unavailable, fun he => ?noOutput, fun he => ?isAvailable⟩
    case unavailable => rw [step_asked hq he, startCall, startRead_unavailable (by exact ha), State.finish, ← hidle]
    case noOutput => rw [step_asked hq he, startCall, startRead, if_neg Bool.false_ne_true, State.finish, ← hidle]
    case isAvailable => rw [step_asked hq he, startCall, State.finish, ← hidle]

end Sys2Proof.Proofs
end

section
/-! PROOF. Errors and the model fault `Overflow` (60_exceptions.md): where a command stops (R264, R266), that on the hardware none
does (R271), what a command that leaves an error code has changed (R260, R269), and which code each command leaves (R262). -/

open Sys2Proof Sys2Proof.Machine Sys2Proof.Certificates

namespace Sys2Proof.Proofs

/-! ### The model fault `Overflow` -/

/-- On the hardware the three evaluators answer, so MEASURE has results to publish. -/
theorem measureResults_wrap_some {par : Params} (hwrap : par.ovfMode = .wrap) (k : Calib) (adcP adcT : BitVec 20)
    (adcH : BitVec 16) : ∃ r, measureResults par k adcP adcT adcH = some r := by
  obtain ⟨tf, t, hT⟩ := compT_wrap_some adcT.toNat k
  obtain ⟨p, z, hP⟩ := compP_wrap_some adcP.toNat tf k
  obtain ⟨h, hH⟩ := compH_wrap_some adcH.toNat tf k
  rw [← hwrap] at hT hP hH
  exact ⟨_, measureResults_eq hT hP hH⟩

theorem ovfMode_eq_fault_of_measureResults {par : Params} {k : Calib} {adcP adcT : BitVec 20} {adcH : BitVec 16}
    (h : measureResults par k adcP adcT adcH = none) : par.ovfMode = .fault := by
  cases hmode : par.ovfMode with
  | fault => rfl
  | wrap =>
    obtain ⟨r, hr⟩ := measureResults_wrap_some hmode k adcP adcT adcH
    cases h.symm.trans hr

theorem exec_calload_next (s : State) : ∃ t, exec .calload s = .next t := by
  cases ha : s.cdp.status.avail with
  | true => exact ⟨_, execCalload_available ha⟩
  | false => exact ⟨_, execCalload_unavailable ha⟩

/-- Only MEASURE can stop. -/
theorem exec_next_of_ne_measure {i : Instr} (hi : i ≠ .measure) (s : State) : ∃ t, exec i s = .next t := by
  cases i with
  | nop => exact ⟨_, rfl⟩
  | calload => exact exec_calload_next s
  | measure => exact absurd rfl hi
  | inval => exact ⟨_, rfl⟩
  | reserved op => exact ⟨_, rfl⟩

/-- MEASURE answers on each of its paths but the one on which the evaluators give no results (R264). -/
theorem execMeasure_next_or_overflow (s : State) : (∃ t, execMeasure s = .next t) ∨ execMeasure s = .fault .overflow := by
  cases ha : s.cdp.status.avail with
  | false => exact .inl ⟨_, execMeasure_unavailable ha⟩
  | true =>
    cases hs : isSentinel s.par (rawP s.seenRaw) (rawT s.seenRaw) (rawH s.seenRaw) with
    | true => exact .inl ⟨_, execMeasure_sentinel ha hs⟩
    | false =>
      cases hk : s.cdp.cal with
      | none => exact .inl ⟨_, execMeasure_noCal ha hs hk⟩
      | some k =>
        cases hr : measureResults s.par k (rawP s.seenRaw) (rawT s.seenRaw) (rawH s.seenRaw) with
        | none => exact .inr ((execMeasure_fault_iff s .overflow).mpr ⟨ha, hs, k, hk, hr⟩)
        | some res => exact .inl ⟨_, execMeasure_publish ha hs hk hr⟩

theorem exec_next_or_overflow (i : Instr) (s : State) : (∃ t, exec i s = .next t) ∨ exec i s = .fault .overflow := by
  by_cases hi : i = .measure
  · rw [hi]
    exact execMeasure_next_or_overflow s
  · exact .inl (exec_next_of_ne_measure hi s)

/-- Settles O14: only MEASURE can stop, it does so where its evaluators give no results, and that rules out the hardware. -/
theorem overflowOnlyInFaultMode : Obligations.OverflowOnlyInFaultMode := by
  unfold Obligations.OverflowOnlyInFaultMode
  refine fun i s => ⟨fun h => ?stops, ?raised⟩
  case stops =>
    have hi : i = .measure := by
      by_contra hi
      obtain ⟨t, ht⟩ := exec_next_of_ne_measure hi s
      cases ht.symm.trans h
    rw [hi] at h
    obtain ⟨ha, hs, k, hk, hr⟩ := (execMeasure_fault_iff s .overflow).mp h
    exact ⟨hi, ovfMode_eq_fault_of_measureResults hr, ha, (isSentinel_eq_false_iff _ _).mp hs, k, hk, hr⟩
  case raised =>
    rintro ⟨rfl, -, ha, hs, hresults⟩
    exact (execMeasure_fault_iff s .overflow).mpr ⟨ha, (isSentinel_eq_false_iff _ _).mpr hs, hresults⟩

/-- Settles O15: a command that does not complete stops with `Overflow`, which the hardware never raises. -/
theorem hardwareCommandsComplete : Obligations.HardwareCommandsComplete := by
  unfold Obligations.HardwareCommandsComplete
  intro i s hwrap
  rcases exec_next_or_overflow i s with hnext | hoverflow
  · exact hnext
  · obtain ⟨-, hfault, -⟩ := (overflowOnlyInFaultMode i s).mp hoverflow
    cases hwrap.symm.trans hfault

/-! ### Errors are precise -/

/-- The registers `c'` differ from `c` only in what the table of R260 lists for the error code they hold (R269). -/
def PreciseError (c c' : Cdp) : Prop :=
  c' = { c with
    adcP := c'.adcP, adcT := c'.adcT, adcH := c'.adcH
    status := { c.status with resValid := c'.status.resValid, err := c'.status.err } } ∧
  (c'.status.err = 1 ∨ c'.status.err = 2 → c'.status.resValid = false) ∧
  (c'.status.err = 3 → c'.status.resValid = c.status.resValid) ∧
  (c'.status.err ≠ 2 → c'.adcP = c.adcP ∧ c'.adcT = c.adcT ∧ c'.adcH = c.adcH)

theorem preciseError_invalidState (c : Cdp) : PreciseError c (c.failMeasure errInvalidState) :=
  ⟨rfl, fun _ => rfl, fun h => absurd h (by decide : errInvalidState ≠ 3), fun _ => ⟨rfl, rfl, rfl⟩⟩

theorem preciseError_invalidResponse (c : Cdp) (r : Image 8) :
    PreciseError c ((c.latch r).failMeasure errInvalidResponse) :=
  ⟨rfl, fun _ => rfl, fun h => absurd h (by decide : errInvalidResponse ≠ 3), fun h => absurd rfl h⟩

theorem preciseError_illegalCommand (c : Cdp) : PreciseError c (c.raiseErr errIllegalCommand) :=
  ⟨rfl, fun h => absurd h (by decide : ¬(errIllegalCommand = 1 ∨ errIllegalCommand = 2)), fun _ => rfl, fun _ => ⟨rfl, rfl, rfl⟩⟩

/-- CALLOAD raises no error (R100, R102, R261). -/
theorem execCalload_err {s t : State} (h : execCalload s = .next t) : t.cdp.status.err = errNone := by
  rcases execCalload_cases h with ⟨-, rfl⟩ | ⟨-, rfl⟩ <;> rfl

/-- A MEASURE that leaves a code has failed, in one of its two ways. -/
theorem execMeasure_preciseError {s t : State} (h : execMeasure s = .next t) (herr : t.cdp.status.err ≠ 0) :
    PreciseError s.cdp t.cdp := by
  rcases execMeasure_cases h with ⟨-, rfl⟩ | ⟨-, -, rfl⟩ | ⟨-, -, k, res, -, -, rfl⟩ | ⟨-, -, -, rfl⟩
  · exact preciseError_invalidState _
  · exact preciseError_invalidResponse _ _
  · exact absurd rfl herr
  · exact preciseError_invalidState _

/-- Settles O41: the error codes are left by a failed MEASURE and by a reserved code, and each write of one is precise. -/
theorem errorsArePrecise : Obligations.ErrorsArePrecise := by
  unfold Obligations.ErrorsArePrecise
  intro i s t hi h herr
  cases i with
  | nop => exact absurd rfl hi
  | calload => exact absurd (execCalload_err h) herr
  | measure => exact execMeasure_preciseError h herr
  | inval => cases h; exact absurd rfl herr
  | reserved op => cases h; exact preciseError_illegalCommand _

/-! ### The codes that the commands leave -/

/-- MEASURE leaves NONE, INVALID_STATE or INVALID_RESPONSE, and NONE with the result that it publishes (R121, R122, R124). -/
theorem execMeasure_err {s t : State} (h : execMeasure s = .next t) :
    t.cdp.status.err ≤ 2 ∧ (t.cdp.status.err = 0 ↔ t.cdp.status.resValid = true) := by
  rcases execMeasure_cases h with ⟨-, rfl⟩ | ⟨-, -, rfl⟩ | ⟨-, -, k, res, -, -, rfl⟩ | ⟨-, -, -, rfl⟩
  · simp [errInvalidState]
  · simp [errInvalidResponse]
  · simp [errNone]
  · simp [errInvalidState]

/-- Settles O42: a step of the host writes no register, and of each command its writes of `ERR`. -/
theorem errIsWrittenByEveryCommandButNop : Obligations.ErrIsWrittenByEveryCommandButNop := by
  unfold Obligations.ErrIsWrittenByEveryCommandButNop
  refine ⟨fun s t hcmd hturn h => ?_, fun i s t h => ?_⟩
  · rw [hostWritesNoRegister s t hcmd hturn h]
  · cases i with
    | nop => cases h; rfl
    | calload => exact execCalload_err h
    | measure => exact execMeasure_err h
    | inval => cases h; rfl
    | reserved op => cases h; rfl

end Sys2Proof.Proofs
end

section
/-! PROOF. The platform's reset (70_reset_and_hazards.md R290, R291): what it leaves in the registers, and the turn in which it
happens. -/

open Sys2Proof Sys2Proof.Machine Sys2Proof.Certificates

namespace Sys2Proof.Proofs

/-- After reset a host finds ⊥ in every register but STATUS (R290). -/
theorem reset_read_eq_none {r : Reg} (h : r ≠ .status) : Cdp.reset.read r = none := by
  cases r with
  | status => exact absurd rfl h
  | _ => rfl

/-- A step in which the platform resets the CDP writes its registers, and takes the turn (R290, R291). -/
theorem step_reset {s : State} {rest : List Turn} (hc : s.cmd = none) (he : s.env = .reset :: rest) :
    step s = .next (State.resetCdp { s with env := rest }) := by
  simp only [step, State.fetch, hc, turnStep, State.nextTurn, State.afterTurn, he]

/-- Settles O37: the values at reset, and the step of the platform's reset. -/
theorem resetLeaves : Obligations.ResetLeaves := by
  unfold Obligations.ResetLeaves
  exact ⟨rfl, fun _ => reset_read_eq_none, fun _ _ => step_reset⟩

end Sys2Proof.Proofs
end
